-- ==== Sys2Proof/Word.lean ====
section
/-! DEFINITION. The plain word types of the codec (00_scope.md R7, R9; 10_state.md R26). The codec computes on bytes; the wider
vectors are operand fields whose bits the spec numbers. -/

namespace Sys2Proof

/-- A byte: an unsigned 8-bit value (R7, R9). -/
abbrev Byte := BitVec 8

/-- A 16-bit payload or reply value (R7, R26). -/
abbrev Half := BitVec 16

/-- The flag vector `FLAGS[12:0]` (R51). -/
abbrev Flags := BitVec 13

/-- The 5-bit field operand of VAL_RANGE (R66). -/
abbrev FieldBits := BitVec 5

/-- The 4-bit operation selector `OP[3:0]` (R64). -/
abbrev Selector := BitVec 4

/-- The 5-bit conflict mask `CM[4:0]` (R52). -/
abbrev GroupMask := BitVec 5

end Sys2Proof
end

