-- ==== Sys2Proof/Syntax.lean ====
section
/-! DEFINITION. The nine operations of the codec (00_scope.md R4, 30_encoding.md R64), the request bundle that carries one of them
(10_state.md R26), the named flags, fields and exclusion groups, and the sixteen pseudo-operations (30_encoding.md R69 to R78). -/

namespace Sys2Proof

/-- The thirteen Standard flags (30_encoding.md R51), from bit 12 down to bit 0. -/
inductive Flag where
  | sense | scan | camera | irisClose | irisOpen | focusNear | focusFar
  | zoomWide | zoomTele | tiltDown | tiltUp | panLeft | panRight
  deriving DecidableEq, Repr

/-- Every Standard flag, in the order of R51. -/
def Flag.all : List Flag :=
  [.sense, .scan, .camera, .irisClose, .irisOpen, .focusNear, .focusFar,
   .zoomWide, .zoomTele, .tiltDown, .tiltUp, .panLeft, .panRight]

/-- The five exclusion groups (30_encoding.md R52), from mask bit 0 up to bit 4. -/
inductive ExclusionGroup where
  | pan | tilt | zoom | focus | iris
  deriving DecidableEq, Repr

/-- The eighteen named fields of the range table (30_encoding.md R66), from field id 0 up to 17. -/
inductive FieldId where
  | address | panSpeed | tiltSpeed | presetId | auxId | zoneId | patternId | zoomSpeed | focusSpeed
  | screenColumn | genericByte | absPanPos | absTiltPos | absZoomPos | shutterSpeed | whiteBalance
  | gain | irisLevel
  deriving DecidableEq, Repr

/-- Every named field, in the order of R66. -/
def FieldId.all : List FieldId :=
  [.address, .panSpeed, .tiltSpeed, .presetId, .auxId, .zoneId, .patternId, .zoomSpeed, .focusSpeed,
   .screenColumn, .genericByte, .absPanPos, .absTiltPos, .absZoomPos, .shutterSpeed, .whiteBalance,
   .gain, .irisLevel]

/-- One operation with the operands it reads (10_state.md R26): one constructor per row of the opcode table.
The value operand of VAL_RANGE is the signed integer the rules compare (R90); that it fits 32 bits is a well-formedness
check (DEDUCED, assumption log 9). `none` is an absent optional operand. -/
inductive Instr where
  /-- CKSUM (R79). -/
  | cksum (address c1 c2 d1 d2 : Byte)
  /-- ENC_RAW (R80); the caller's checksum is an operand that is never read. -/
  | encRaw (address c1 c2 d1 d2 : Byte) (checksumIn : Option Byte)
  /-- DEC_CMD (R81). -/
  | decCmd (input : List Byte)
  /-- DEC_GEN (R82). -/
  | decGen (input : List Byte)
  /-- DEC_EXT (R83). -/
  | decExt (input : List Byte) (expectedOpcode : Byte)
  /-- VAL_RANGE (R90). -/
  | valRange (field : FieldBits) (value : Int)
  /-- VAL_EXCL (R92). -/
  | valExcl (flags : Flags)
  /-- ENC_STD (R97). -/
  | encStd (address : Byte) (flags : Flags) (panSpeed tiltSpeed : Byte)
  /-- ENC_EXT (R99). -/
  | encExt (address opcode : Byte) (subOpcode : Option Byte) (payload16 : Half)
  deriving DecidableEq, Repr

/-- The request bundle `op` (10_state.md R26): the selector and every operand field. An operation reads only its own
fields; the selector is the only part with a bit pattern (R60). -/
structure Request where
  op : Selector
  address : Byte := 0
  c1 : Byte := 0
  c2 : Byte := 0
  d1 : Byte := 0
  d2 : Byte := 0
  checksumIn : Option Byte := none
  input : List Byte := []
  expectedOpcode : Byte := 0
  field : FieldBits := 0
  /-- The 32-bit two's-complement value operand (R26). -/
  value : BitVec 32 := 0
  flags : Flags := 0
  panSpeed : Byte := 0
  tiltSpeed : Byte := 0
  opcode : Byte := 0
  subOpcode : Option Byte := none
  payload16 : Half := 0
  deriving DecidableEq, Repr

/-- Why a request names no operation. -/
inductive DecodeError where
  /-- The selector is reserved, 0x9 to 0xF (30_encoding.md R65). -/
  | reservedSelector (op : Selector)
  deriving DecidableEq, Repr

/-- The sixteen pseudo-operations (30_encoding.md R70 to R76): notation for one or two requests, with no selector of
their own (R78). The preset id is the signed value its VAL_RANGE request carries (DEDUCED, assumption log 10). -/
inductive Pseudo where
  | stop (address : Byte)
  | panLeft (address speed : Byte)
  | panRight (address speed : Byte)
  | tiltUp (address speed : Byte)
  | tiltDown (address speed : Byte)
  | panTilt (address : Byte) (flags : Flags) (panSpeed tiltSpeed : Byte)
  | zoomTele (address : Byte)
  | zoomWide (address : Byte)
  | focusNear (address : Byte)
  | focusFar (address : Byte)
  | irisOpen (address : Byte)
  | irisClose (address : Byte)
  | gotoPreset (address : Byte) (id : Int)
  | flip180 (address : Byte)
  | zeroPan (address : Byte)
  | queryPanPos (address : Byte)
  deriving DecidableEq, Repr

end Sys2Proof
end

