-- ==== Sys2Proof/Config.lean ====
section
/-! DEFINITION. The configuration record `cfg` (00_scope.md R8; 10_state.md R18 to R24): fixed when the block is made, read-only to
every operation. A value outside the legal set of PAN_SPEED_MAX or PRESET_ID_MIN has no constructor here, so the model cannot be
set up with it (R19). The two OPEN parameters are constants without a body: nothing can be proved about which value they have. -/

namespace Sys2Proof

/-- `PAN_SPEED_MAX`, legal values 63 and 64 (R19). -/
inductive PanSpeedMax where
  | max63
  | max64
  deriving DecidableEq, Repr, Inhabited

/-- `PRESET_ID_MIN`, legal values 1 and 2 (R21). -/
inductive PresetIdMin where
  | min1
  | min2
  deriving DecidableEq, Repr

/-- The command byte a flag position lies in (R24). -/
inductive CmdByte where
  | c1
  | c2
  deriving DecidableEq, Repr

/-- A flag position: a command byte and a bit 0 to 7 of it (R24). -/
structure FlagPos where
  byte : CmdByte
  bit : Fin 8
  deriving DecidableEq, Repr

/-- `STD_FLAG_BITMAP`: a position for each Standard flag (R24). -/
structure FlagBitmap where
  sense : FlagPos
  scan : FlagPos
  camera : FlagPos
  irisClose : FlagPos
  irisOpen : FlagPos
  focusNear : FlagPos
  focusFar : FlagPos
  zoomWide : FlagPos
  zoomTele : FlagPos
  tiltDown : FlagPos
  tiltUp : FlagPos
  panLeft : FlagPos
  panRight : FlagPos
  deriving DecidableEq, Repr

/-- The position the bitmap gives a flag: `cfg.STD_FLAG_BITMAP(f)` of R53 and R97. -/
def FlagBitmap.pos (m : FlagBitmap) : Flag → FlagPos
  | .sense => m.sense
  | .scan => m.scan
  | .camera => m.camera
  | .irisClose => m.irisClose
  | .irisOpen => m.irisOpen
  | .focusNear => m.focusNear
  | .focusFar => m.focusFar
  | .zoomWide => m.zoomWide
  | .zoomTele => m.zoomTele
  | .tiltDown => m.tiltDown
  | .tiltUp => m.tiltUp
  | .panLeft => m.panLeft
  | .panRight => m.panRight

/-- The configuration record (R8). -/
structure Config where
  /-- OPEN (R19). -/
  panSpeedMax : PanSpeedMax
  tiltSpeedMax : Byte
  presetIdMin : PresetIdMin
  /-- OPEN (R22). -/
  verifyGeneralChecksum : Bool
  extOpcodeOddCheck : Bool
  stdFlagBitmap : FlagBitmap
  gotoPresetOpcode : Byte
  deriving DecidableEq, Repr

/-- The OPEN pan-speed maximum the block is made with (R19): no body, so either legal value (DEDUCED, assumption log 3). -/
opaque Config.openPanSpeedMax : PanSpeedMax

/-- The OPEN general-reply checksum toggle the block is made with (R22): no body, so either value (DEDUCED, assumption log 3). -/
opaque Config.openVerifyGeneralChecksum : Bool

end Sys2Proof
end

