-- ==== Sys2Proof/WellFormed.lean ====
section
/-! DEFINITION. What the types alone do not check: that the signed operands fit the 32 bits the spec gives them (R26), and that a
configuration is legal (00_scope.md R8). -/

namespace Sys2Proof

/-- A signed integer that 32 two's-complement bits hold (10_state.md R26, 41_validator.md R90). -/
def fits32 (v : Int) : Bool := decide (-2147483648 ≤ v) && decide (v ≤ 2147483647)

/-- Every operand is in the width R26 gives it. Only VAL_RANGE's value needs a check, since the other operands are typed by
their widths; reserved field ids, odd or even opcodes and buffers of any length are well-formed requests (R36, R67). -/
def Instr.wellFormed : Instr → Bool
  | .cksum _ _ _ _ _ => true
  | .encRaw _ _ _ _ _ _ => true
  | .decCmd _ => true
  | .decGen _ => true
  | .decExt _ _ => true
  | .valRange _ value => fits32 value
  | .valExcl _ => true
  | .encStd _ _ _ _ => true
  | .encExt _ _ _ _ => true

/-- A pseudo-operation whose requests are well-formed: only GOTO_PRESET carries a signed value (30_encoding.md R74). -/
def Pseudo.wellFormed : Pseudo → Bool
  | .gotoPreset _ id => fits32 id
  | .stop _ | .panLeft _ _ | .panRight _ _ | .tiltUp _ _ | .tiltDown _ _ | .panTilt _ _ _ _ | .zoomTele _ | .zoomWide _
  | .focusNear _ | .focusFar _ | .irisOpen _ | .irisClose _ | .flip180 _ | .zeroPan _ | .queryPanPos _ => true

/-- The positions of the bitmap are distinct (10_state.md R24). -/
def FlagBitmap.distinct (m : FlagBitmap) : Bool := decide (Flag.all.map m.pos).Nodup

/-- A legal configuration (00_scope.md R8): the tilt maximum is 63 (DEDUCED, assumption log 16), the
bitmap's positions are distinct and GOTO_PRESET_OPCODE is
odd. The other parameters have no illegal value. -/
def Config.legal (c : Config) : Bool :=
  decide (c.tiltSpeedMax = 63) && c.stdFlagBitmap.distinct && c.gotoPresetOpcode.getLsbD 0

end Sys2Proof
end

