-- ==== Sys2Proof/Machine/Defaults.lean ====
section
/-! DEFINITION. The configuration the block is made with (00_scope.md R8): the spec's default of each parameter that has one, the
OPEN constants for the two that have none. -/

namespace Sys2Proof.Machine

/-- The default Standard flag bitmap (30_encoding.md R50, which the spec takes from general knowledge; PRESUMED, assumption log 4). -/
def defaultBitmap : FlagBitmap where
  sense := ⟨.c1, 7⟩
  scan := ⟨.c1, 4⟩
  camera := ⟨.c1, 3⟩
  irisClose := ⟨.c1, 2⟩
  irisOpen := ⟨.c1, 1⟩
  focusNear := ⟨.c1, 0⟩
  focusFar := ⟨.c2, 7⟩
  zoomWide := ⟨.c2, 6⟩
  zoomTele := ⟨.c2, 5⟩
  tiltDown := ⟨.c2, 4⟩
  tiltUp := ⟨.c2, 3⟩
  panLeft := ⟨.c2, 2⟩
  panRight := ⟨.c2, 1⟩

/-- The spec's configuration for given values of the two OPEN parameters (00_scope.md R8). -/
def configWith (panSpeedMax : PanSpeedMax) (verifyGeneralChecksum : Bool) : Config where
  panSpeedMax := panSpeedMax
  tiltSpeedMax := 63
  presetIdMin := .min1
  verifyGeneralChecksum := verifyGeneralChecksum
  extOpcodeOddCheck := true
  stdFlagBitmap := defaultBitmap
  gotoPresetOpcode := 0x05

/-- The configuration in force at reset: the OPEN parameters as they were supplied when the block was made (70_reset_and_hazards.md
R123, R124; DEDUCED, assumption log 3). -/
def madeConfig : Config := configWith Config.openPanSpeedMax Config.openVerifyGeneralChecksum

end Sys2Proof.Machine
end

