-- ==== Sys2Proof/Decode.lean ====
section
/-! DEFINITION. The request decoder, total on every request and rejecting a reserved selector by name (30_encoding.md R60 to R65), and
the encoder that writes an operation as a request. The selector is the only part of a request with a bit pattern; the operands are
typed fields (R60). -/

namespace Sys2Proof

/-- Read the operation a request asks for (R64). Each operation takes only the operand fields R26 lists for it; a reserved
selector is rejected with nothing else examined (R65, 60_exceptions.md R106). -/
def decode (r : Request) : Except DecodeError Instr :=
  match r.op.toNat with
  | 0 => .ok (.cksum r.address r.c1 r.c2 r.d1 r.d2)
  | 1 => .ok (.encRaw r.address r.c1 r.c2 r.d1 r.d2 r.checksumIn)
  | 2 => .ok (.decCmd r.input)
  | 3 => .ok (.decGen r.input)
  | 4 => .ok (.decExt r.input r.expectedOpcode)
  | 5 => .ok (.valRange r.field r.value.toInt)
  | 6 => .ok (.valExcl r.flags)
  | 7 => .ok (.encStd r.address r.flags r.panSpeed r.tiltSpeed)
  | 8 => .ok (.encExt r.address r.opcode r.subOpcode r.payload16)
  | _ => .error (.reservedSelector r.op)

/-- The selector of each operation (R64). -/
def Instr.selector : Instr → Selector
  | .cksum _ _ _ _ _ => 0b0000
  | .encRaw _ _ _ _ _ _ => 0b0001
  | .decCmd _ => 0b0010
  | .decGen _ => 0b0011
  | .decExt _ _ => 0b0100
  | .valRange _ _ => 0b0101
  | .valExcl _ => 0b0110
  | .encStd _ _ _ _ => 0b0111
  | .encExt _ _ _ _ => 0b1000

/-- Write an operation as a request: its selector (R64) and its operand fields (R26), every other field zero or absent
(DEDUCED, assumption log 8). -/
def encode (i : Instr) : Request :=
  match i with
  | .cksum address c1 c2 d1 d2 =>
    { op := i.selector, address := address, c1 := c1, c2 := c2, d1 := d1, d2 := d2 }
  | .encRaw address c1 c2 d1 d2 checksumIn =>
    { op := i.selector, address := address, c1 := c1, c2 := c2, d1 := d1, d2 := d2, checksumIn := checksumIn }
  | .decCmd input => { op := i.selector, input := input }
  | .decGen input => { op := i.selector, input := input }
  | .decExt input expectedOpcode => { op := i.selector, input := input, expectedOpcode := expectedOpcode }
  | .valRange field value => { op := i.selector, field := field, value := BitVec.ofInt 32 value }
  | .valExcl flags => { op := i.selector, flags := flags }
  | .encStd address flags panSpeed tiltSpeed =>
    { op := i.selector, address := address, flags := flags, panSpeed := panSpeed, tiltSpeed := tiltSpeed }
  | .encExt address opcode subOpcode payload16 =>
    { op := i.selector, address := address, opcode := opcode, subOpcode := subOpcode, payload16 := payload16 }

/-- The request that a word of the opcode table stands for: its low four bits are the selector (mask 0xF), and the operands,
which the table packs into no word (R60), are zero, empty or absent (DESIGN CHOICE, assumption log 7). -/
def tableRequest (w : Nat) : Request := { op := BitVec.ofNat 4 w }

/-- The operation the decoder reads from a word of the opcode table; none for a reserved selector. -/
def decodeTableWord (_nbits w : Nat) : Option Instr :=
  match decode (tableRequest w) with
  | .ok i => some i
  | .error _ => none

end Sys2Proof
end

