-- ==== Sys2Proof/Machine/Response.lean ====
section
/-! DEFINITION. The response bundle (10_state.md R27 to R30): a result on OK, or one error with its information (60_exceptions.md R103,
R104). A response is one or the other, so an error carries no result field. -/

namespace Sys2Proof.Machine

/-- The seven frame bytes `[b0..b6]` of an encoder's result, in wire order (R27, R33). -/
structure Frame where
  b0 : Byte
  b1 : Byte
  b2 : Byte
  b3 : Byte
  b4 : Byte
  b5 : Byte
  b6 : Byte
  deriving DecidableEq, Repr

/-- The command frame record (R28). -/
structure CommandRecord where
  address : Byte
  command1 : Byte
  command2 : Byte
  data1 : Byte
  data2 : Byte
  checksum : Byte
  deriving DecidableEq, Repr

/-- The general reply record (R29). -/
structure GeneralReply where
  address : Byte
  alarm : Byte
  checksum : Byte
  deriving DecidableEq, Repr

/-- The extended reply record (R30). -/
structure ExtendedReply where
  address : Byte
  response1 : Byte
  response2 : Byte
  data1 : Byte
  data2 : Byte
  checksum : Byte
  data16 : Half
  deriving DecidableEq, Repr

/-- The result fields on OK (R27). -/
inductive Result where
  /-- CKSUM. -/
  | checksum (value : Byte)
  /-- ENC_RAW, ENC_STD, ENC_EXT. -/
  | frame (f : Frame)
  /-- DEC_CMD. -/
  | cmd (r : CommandRecord)
  /-- DEC_GEN. -/
  | gen (r : GeneralReply)
  /-- DEC_EXT. -/
  | ext (r : ExtendedReply)
  /-- VAL_RANGE and VAL_EXCL: status only. -/
  | statusOnly
  deriving DecidableEq, Repr

/-- The error responses and the information each records (60_exceptions.md R103). -/
inductive Error where
  | badLength (expected actual : Nat)
  | badSync (received : Byte)
  | checksumMismatch (received computed : Byte)
  | unexpectedOpcode (expected received : Byte)
  | outOfRange (field : FieldId) (value : Int) (min max : Nat)
  | conflictingFlags (groups : GroupMask)
  | evenOpcode (opcode : Byte)
  | illegalOperation (op : Selector)
  | illegalField (field : FieldBits)
  deriving DecidableEq, Repr

/-- The single answer to a request (R27): OK with its result, or one error. -/
inductive Response where
  | ok (r : Result)
  | error (e : Error)
  deriving DecidableEq, Repr

/-- The source's error classes that a status belongs to (60_exceptions.md R105). -/
inductive ErrorClass where
  | validationError
  | checksumError
  | frameOrReplyError
  | protocolError
  | malformedRequest
  deriving DecidableEq, Repr

end Sys2Proof.Machine
end

