-- ==== Sys2Proof/Machine/State.lean ====
section
/-! DEFINITION. The state of the machine as plain data. The codec's own state is its handshake and its constant configuration
(10_state.md R14, R18) and its response output (70_reset_and_hazards.md R123); the host agent (R13) is the list of moves it has yet to
make and the responses it has received (30_encoding.md R62). There is no register, memory, program counter or flag (R15 to R17,
20_memory.md R32). -/

namespace Sys2Proof.Machine

/-- The handshake state `hs` (10_state.md R14). -/
inductive Handshake where
  /-- No request is held. -/
  | idle
  /-- The one accepted request is held until its response is delivered. -/
  | busy (req : Request)
  deriving DecidableEq, Repr

/-- What happens next at the block's boundary. The codec never chooses among these: the list in `State.schedule` is the world
outside it (DESIGN CHOICE, assumption log 1). -/
inductive Move where
  /-- The host submits a request; it can do so only while the codec is IDLE (R14, R125). -/
  | submit (req : Request)
  /-- The host submits the next request of a pseudo-operation, only if the response just delivered is OK (30_encoding.md R69;
  DESIGN CHOICE, assumption log 14). -/
  | submitIfOk (req : Request)
  /-- Reset, in IDLE or BUSY (70_reset_and_hazards.md R121). -/
  | reset
  /-- The codec takes its turn: it delivers the response of the request it holds, if it holds one. -/
  | codec
  /-- Time passes and neither agent acts: the finite, unbounded delay of R130 (DESIGN CHOICE, assumption log 11). -/
  | pass
  deriving DecidableEq, Repr

/-- The whole state: the codec's configuration, handshake and response output, and the host's record and remaining moves. -/
structure State where
  /-- The configuration, constant for the whole run (R18). -/
  cfg : Config
  /-- The handshake state (R14). -/
  hs : Handshake
  /-- The response output: the response last delivered; none after a reset or once the next request is accepted (R17, R123;
  DESIGN CHOICE, assumption log 5). -/
  response : Option Response
  /-- Every response the host has received, oldest first (R62; DESIGN CHOICE, assumption log 6). -/
  received : List Response
  /-- The moves still to come, first one next (R38). -/
  schedule : List Move
  deriving DecidableEq, Repr

/-- The reasons the machine stops with a fault. There are none: every request yields exactly one response, an error being a response
like any other (40_codec.md R87, 60_exceptions.md R108; DEDUCED, assumption log 13). -/
inductive Fault where
  deriving DecidableEq, Repr

/-- The reasons the machine refuses an instruction. -/
inductive Refusal where
  /-- An operation without a meaning in this model, raised only by an arm of `exec`; no arm raises it. Safe: the model stops. -/
  | notModelled (mnemonic : String)
  deriving DecidableEq, Repr

/-- The machine right after reset (70_reset_and_hazards.md R121 to R123): IDLE, no held request, no response pending, the
configuration as the block was made with it, nothing received and no move to come. -/
def State.reset : State where
  cfg := madeConfig
  hs := .idle
  response := none
  received := []
  schedule := []

end Sys2Proof.Machine
end

