-- ==== Sys2Proof/Machine/Ops.lean ====
section
/-! DEFINITION. The shared operations: the checksum, the frame layout, and the moves of the handshake: accepting a request, delivering a
response, raising an error and resetting the block. -/

namespace Sys2Proof.Machine

/-- The sync byte (00_scope.md R7). -/
def syncByte : Byte := 0xFF

/-- `sum8`: the sum at full precision, reduced once modulo 256 (00_scope.md R10). -/
def sum8 (bytes : List Byte) : Byte := BitVec.ofNat 8 ((bytes.map BitVec.toNat).sum % 256)

/-- `a ++ b` on bytes, `hi` in the high bits (00_scope.md R9, 20_memory.md R34). -/
def joinBytes (hi lo : Byte) : Half := hi ++ lo

/-- The more significant byte of a 16-bit value, `v[15:8]` (20_memory.md R34). -/
def highByte (v : Half) : Byte := v.extractLsb' 8 8

/-- The less significant byte of a 16-bit value, `v[7:0]` (20_memory.md R34). -/
def lowByte (v : Half) : Byte := v.extractLsb' 0 8

/-- The frame as the byte sequence on the wire, index 0 first (20_memory.md R33). -/
def Frame.toList (f : Frame) : List Byte := [f.b0, f.b1, f.b2, f.b3, f.b4, f.b5, f.b6]

/-- The five bytes a command frame's or extended reply's checksum covers (30_encoding.md R46, R48). -/
def Frame.covered (f : Frame) : List Byte := [f.b1, f.b2, f.b3, f.b4, f.b5]

/-- The command frame of five field bytes, its checksum computed (30_encoding.md R45, 40_codec.md R80). -/
def commandFrame (address c1 c2 d1 d2 : Byte) : Frame where
  b0 := syncByte
  b1 := address
  b2 := c1
  b3 := c2
  b4 := d1
  b5 := d2
  b6 := sum8 [address, c1, c2, d1, d2]

/-- IDLE → BUSY(req): the codec holds the request, and the last response is no longer at its output (10_state.md R14, R17). -/
def State.accept (s : State) (req : Request) : State :=
  { s with hs := .busy req, response := none }

/-- BUSY(req) → IDLE: the response leaves the block and the host receives it; nothing else changes (10_state.md R14). -/
def State.deliver (s : State) (r : Response) : State :=
  { s with hs := .idle, response := some r, received := s.received ++ [r] }

/-- Reset of the block: IDLE, a held request and its response discarded, the configuration untouched (70_reset_and_hazards.md R121,
R122). What the host has already received stays the host's. -/
def State.resetBlock (s : State) : State := { s with hs := .idle, response := none }

/-- `return OK`: the operation completes with its result (00_scope.md R11). -/
def complete (r : Result) (s : State) : Host.Outcome State Fault Refusal := .next (s.deliver (.ok r))

/-- `raise E(info)`: what an error does (00_scope.md R11, 60_exceptions.md R108): the response carries the error and its
information and no result, no frame byte leaves the block, `hs` returns to IDLE and nothing else changes. There is no saved
state and no return operation: the block serves the next request as if the error had not been (R110). -/
def raise (e : Error) (s : State) : Host.Outcome State Fault Refusal := .next (s.deliver (.error e))

/-- Complete or raise, as the response says. -/
def answer (r : Response) (s : State) : Host.Outcome State Fault Refusal :=
  match r with
  | .ok result => complete result s
  | .error e => raise e s

/-- Whether a response is OK. -/
def Response.isOk : Response → Bool
  | .ok _ => true
  | .error _ => false

end Sys2Proof.Machine
end

