-- ==== Sys2Proof/Machine/Operands.lean ====
section
/-! DEFINITION. The operand forms: named flags and fields and their numbers, the optional sub-opcode, the input buffers of the decoders,
and the range table with its check. -/

namespace Sys2Proof.Machine

/-- The bit of the flag vector that a flag has (30_encoding.md R51). -/
def flagBit : Flag → Nat
  | .sense => 12
  | .scan => 11
  | .camera => 10
  | .irisClose => 9
  | .irisOpen => 8
  | .focusNear => 7
  | .focusFar => 6
  | .zoomWide => 5
  | .zoomTele => 4
  | .tiltDown => 3
  | .tiltUp => 2
  | .panLeft => 1
  | .panRight => 0

/-- Whether a flag is requested: bit `f` of the flag vector is set (30_encoding.md R51). -/
def hasFlag (flags : Flags) (f : Flag) : Bool := flags.getLsbD (flagBit f)

/-- The flag vector of a set of flags (30_encoding.md R61). -/
def flagSet (fs : List Flag) : Flags := fs.foldl (fun v f => v ||| (1#13 <<< flagBit f)) 0

/-- The number of a named field (30_encoding.md R66). -/
def fieldNumber : FieldId → Nat
  | .address => 0
  | .panSpeed => 1
  | .tiltSpeed => 2
  | .presetId => 3
  | .auxId => 4
  | .zoneId => 5
  | .patternId => 6
  | .zoomSpeed => 7
  | .focusSpeed => 8
  | .screenColumn => 9
  | .genericByte => 10
  | .absPanPos => 11
  | .absTiltPos => 12
  | .absZoomPos => 13
  | .shutterSpeed => 14
  | .whiteBalance => 15
  | .gain => 16
  | .irisLevel => 17

/-- The field a field operand names; none for the reserved ids 18 to 31 (30_encoding.md R66, R67). -/
def fieldOfBits (field : FieldBits) : Option FieldId := FieldId.all.find? (fun f => fieldNumber f == field.toNat)

/-- `cfg.PAN_SPEED_MAX` as a number (10_state.md R19). -/
def panSpeedMaxValue : PanSpeedMax → Nat
  | .max63 => 63
  | .max64 => 64

/-- `cfg.PRESET_ID_MIN` as a number (10_state.md R21). -/
def presetIdMinValue : PresetIdMin → Nat
  | .min1 => 1
  | .min2 => 2

/-- The range table `RANGE(field) = (min, max)`, inclusive at both ends (41_validator.md R89). -/
def rangeOf (cfg : Config) : FieldId → Nat × Nat
  | .address => (1, 255)
  | .panSpeed => (0, panSpeedMaxValue cfg.panSpeedMax)
  | .tiltSpeed => (0, cfg.tiltSpeedMax.toNat)
  | .presetId => (presetIdMinValue cfg.presetIdMin, 255)
  | .auxId => (1, 8)
  | .zoneId => (1, 255)
  | .patternId => (0, 8)
  | .zoomSpeed => (0, 3)
  | .focusSpeed => (0, 3)
  | .screenColumn => (0, 39)
  | .genericByte => (0, 255)
  | .absPanPos => (0, 65535)
  | .absTiltPos => (0, 65535)
  | .absZoomPos => (0, 65535)
  | .shutterSpeed => (0, 65535)
  | .whiteBalance => (0, 65535)
  | .gain => (0, 65535)
  | .irisLevel => (0, 65535)

/-- The range check of one value against a named field (41_validator.md R90): the error it raises, or none. -/
def checkRange (cfg : Config) (field : FieldId) (value : Int) : Option Error :=
  if value < (rangeOf cfg field).1 ∨ (rangeOf cfg field).2 < value then
    some (.outOfRange field value (rangeOf cfg field).1 (rangeOf cfg field).2)
  else none

/-- The range check of a byte operand (42_shapes.md R97, R99). -/
def checkByte (cfg : Config) (field : FieldId) (value : Byte) : Option Error := checkRange cfg field (value.toNat : Int)

/-- An absent sub-opcode reads 0x00 (30_encoding.md R54). -/
def subOpcodeByte (subOpcode : Option Byte) : Byte := subOpcode.getD 0x00

/-- Read a 7-byte buffer as a checked frame: length, then sync, then checksum (40_codec.md R81, R83; 60_exceptions.md R106). -/
def readFrame (input : List Byte) : Except Error Frame :=
  match input with
  | [b0, b1, b2, b3, b4, b5, b6] =>
    if b0 ≠ syncByte then .error (.badSync b0)
    else if b6 ≠ sum8 [b1, b2, b3, b4, b5] then .error (.checksumMismatch b6 (sum8 [b1, b2, b3, b4, b5]))
    else .ok { b0 := b0, b1 := b1, b2 := b2, b3 := b3, b4 := b4, b5 := b5, b6 := b6 }
  | _ => .error (.badLength 7 input.length)

/-- Read a 4-byte buffer as a general reply: length, then sync, then the checksum when the configuration asks for it
(40_codec.md R82). -/
def readGeneral (cfg : Config) (input : List Byte) : Except Error GeneralReply :=
  match input with
  | [b0, b1, b2, b3] =>
    if b0 ≠ syncByte then .error (.badSync b0)
    else if cfg.verifyGeneralChecksum = true ∧ b3 ≠ sum8 [b1, b2] then .error (.checksumMismatch b3 (sum8 [b1, b2]))
    else .ok { address := b1, alarm := b2, checksum := b3 }
  | _ => .error (.badLength 4 input.length)

end Sys2Proof.Machine
end

