-- ==== Sys2Proof/Machine/Flags.lean ====
section
/-! DEFINITION. Everything computed from or as flags: the exclusion groups and their mask, the command bytes of the Standard shape, and the
status code of a response. The codec keeps no flag (10_state.md R17). -/

namespace Sys2Proof.Machine

/-- The mask bit of an exclusion group (30_encoding.md R52). -/
def groupBit : ExclusionGroup → Nat
  | .pan => 0
  | .tilt => 1
  | .zoom => 2
  | .focus => 3
  | .iris => 4

/-- `CM[k] = FLAGS[2k+1] && FLAGS[2k]`: both flags of group `k` are set (30_encoding.md R52). -/
def groupConflict (flags : Flags) (k : Nat) : Bool := flags.getLsbD (2 * k + 1) && flags.getLsbD (2 * k)

/-- The conflict mask `CM[4:0]` (30_encoding.md R52). -/
def conflictMask (flags : Flags) : GroupMask :=
  BitVec.ofBool (groupConflict flags (groupBit .iris)) ++ BitVec.ofBool (groupConflict flags (groupBit .focus)) ++
    BitVec.ofBool (groupConflict flags (groupBit .zoom)) ++ BitVec.ofBool (groupConflict flags (groupBit .tilt)) ++
    BitVec.ofBool (groupConflict flags (groupBit .pan))

/-- The mutual exclusion check (41_validator.md R92): the error it raises, or none. -/
def checkExclusive (flags : Flags) : Option Error :=
  if conflictMask flags ≠ 0 then some (.conflictingFlags (conflictMask flags)) else none

/-- One command byte of the Standard shape: the OR of the positions of the set flags that lie in it (30_encoding.md R53). -/
def flagByte (m : FlagBitmap) (flags : Flags) (which : CmdByte) : Byte :=
  Flag.all.foldl
    (fun acc f => if hasFlag flags f ∧ (m.pos f).byte = which then acc ||| (1#8 <<< (m.pos f).bit.val) else acc) 0

/-- The status code of an error (60_exceptions.md R103). -/
def errorStatus : Error → BitVec 4
  | .badLength _ _ => 0x1
  | .badSync _ => 0x2
  | .checksumMismatch _ _ => 0x3
  | .unexpectedOpcode _ _ => 0x4
  | .outOfRange _ _ _ _ => 0x5
  | .conflictingFlags _ => 0x6
  | .evenOpcode _ => 0x7
  | .illegalOperation _ => 0x8
  | .illegalField _ => 0x9

/-- The 4-bit status field of a response (60_exceptions.md R103). -/
def responseStatus : Response → BitVec 4
  | .ok _ => 0x0
  | .error e => errorStatus e

/-- The source's class of an error (60_exceptions.md R105). -/
def errorClass : Error → ErrorClass
  | .badLength _ _ => .frameOrReplyError
  | .badSync _ => .frameOrReplyError
  | .checksumMismatch _ _ => .checksumError
  | .unexpectedOpcode _ _ => .protocolError
  | .outOfRange _ _ _ _ => .validationError
  | .conflictingFlags _ => .validationError
  | .evenOpcode _ => .validationError
  | .illegalOperation _ => .malformedRequest
  | .illegalField _ => .malformedRequest

end Sys2Proof.Machine
end

