-- ==== Sys2Proof/Machine/Codec.lean ====
section
/-! DEFINITION. The codec family: CKSUM, ENC_RAW, DEC_CMD, DEC_GEN and DEC_EXT (40_codec.md). Each operation's response is a function of
the configuration and its operands alone (10_state.md R14); its meaning delivers that response. -/

namespace Sys2Proof.Machine

/-- CKSUM (R79). -/
def cksumResponse (address c1 c2 d1 d2 : Byte) : Response := .ok (.checksum (sum8 [address, c1, c2, d1, d2]))

/-- ENC_RAW (R80): no validation; the caller's checksum is never read. -/
def encRawResponse (address c1 c2 d1 d2 : Byte) (_checksumIn : Option Byte) : Response :=
  .ok (.frame (commandFrame address c1 c2 d1 d2))

/-- DEC_CMD (R81). -/
def decCmdResponse (input : List Byte) : Response :=
  match readFrame input with
  | .error e => .error e
  | .ok f =>
    .ok (.cmd { address := f.b1, command1 := f.b2, command2 := f.b3, data1 := f.b4, data2 := f.b5, checksum := f.b6 })

/-- DEC_GEN (R82). -/
def decGenResponse (cfg : Config) (input : List Byte) : Response :=
  match readGeneral cfg input with
  | .error e => .error e
  | .ok g => .ok (.gen g)

/-- DEC_EXT (R83): the opcode is compared last, as given. -/
def decExtResponse (input : List Byte) (expectedOpcode : Byte) : Response :=
  match readFrame input with
  | .error e => .error e
  | .ok f =>
    if f.b3 ≠ expectedOpcode then .error (.unexpectedOpcode expectedOpcode f.b3)
    else
      .ok (.ext { address := f.b1, response1 := f.b2, response2 := f.b3, data1 := f.b4, data2 := f.b5, checksum := f.b6,
                  data16 := joinBytes f.b4 f.b5 })

/-- The meaning of CKSUM (R79). -/
def execCksum (address c1 c2 d1 d2 : Byte) (s : State) : Host.Outcome State Fault Refusal :=
  answer (cksumResponse address c1 c2 d1 d2) s

/-- The meaning of ENC_RAW (R80). -/
def execEncRaw (address c1 c2 d1 d2 : Byte) (checksumIn : Option Byte) (s : State) : Host.Outcome State Fault Refusal :=
  answer (encRawResponse address c1 c2 d1 d2 checksumIn) s

/-- The meaning of DEC_CMD (R81). -/
def execDecCmd (input : List Byte) (s : State) : Host.Outcome State Fault Refusal := answer (decCmdResponse input) s

/-- The meaning of DEC_GEN (R82). -/
def execDecGen (input : List Byte) (s : State) : Host.Outcome State Fault Refusal := answer (decGenResponse s.cfg input) s

/-- The meaning of DEC_EXT (R83). -/
def execDecExt (input : List Byte) (expectedOpcode : Byte) (s : State) : Host.Outcome State Fault Refusal :=
  answer (decExtResponse input expectedOpcode) s

end Sys2Proof.Machine
end

