-- ==== Sys2Proof/Machine/Shapes.lean ====
section
/-! DEFINITION. The shape family: the validated encoders ENC_STD and ENC_EXT (42_shapes.md). -/

namespace Sys2Proof.Machine

/-- The first error of ENC_STD, in its priority order: exclusion, address, pan speed, tilt speed (R97, 60_exceptions.md R106). -/
def encStdError (cfg : Config) (address : Byte) (flags : Flags) (panSpeed tiltSpeed : Byte) : Option Error :=
  (checkExclusive flags).or
    ((checkByte cfg .address address).or ((checkByte cfg .panSpeed panSpeed).or (checkByte cfg .tiltSpeed tiltSpeed)))

/-- ENC_STD (R97). -/
def encStdResponse (cfg : Config) (address : Byte) (flags : Flags) (panSpeed tiltSpeed : Byte) : Response :=
  match encStdError cfg address flags panSpeed tiltSpeed with
  | some e => .error e
  | none =>
    .ok (.frame (commandFrame address (flagByte cfg.stdFlagBitmap flags .c1) (flagByte cfg.stdFlagBitmap flags .c2)
      panSpeed tiltSpeed))

/-- The odd-opcode check of ENC_EXT (R99, 10_state.md R23). -/
def checkOddOpcode (cfg : Config) (opcode : Byte) : Option Error :=
  if cfg.extOpcodeOddCheck = true ∧ opcode.getLsbD 0 = false then some (.evenOpcode opcode) else none

/-- ENC_EXT (R99): address, then the odd-opcode check. -/
def encExtResponse (cfg : Config) (address opcode : Byte) (subOpcode : Option Byte) (payload16 : Half) : Response :=
  match (checkByte cfg .address address).or (checkOddOpcode cfg opcode) with
  | some e => .error e
  | none =>
    .ok (.frame (commandFrame address (subOpcodeByte subOpcode) opcode (highByte payload16) (lowByte payload16)))

/-- The meaning of ENC_STD (R97). -/
def execEncStd (address : Byte) (flags : Flags) (panSpeed tiltSpeed : Byte) (s : State) :
    Host.Outcome State Fault Refusal :=
  answer (encStdResponse s.cfg address flags panSpeed tiltSpeed) s

/-- The meaning of ENC_EXT (R99). -/
def execEncExt (address opcode : Byte) (subOpcode : Option Byte) (payload16 : Half) (s : State) :
    Host.Outcome State Fault Refusal :=
  answer (encExtResponse s.cfg address opcode subOpcode payload16) s

end Sys2Proof.Machine
end

