-- ==== Sys2Proof/Machine/Validator.lean ====
section
/-! DEFINITION. The validator family: VAL_RANGE and VAL_EXCL (41_validator.md). -/

namespace Sys2Proof.Machine

/-- VAL_RANGE (R90): a reserved field id is reported before the value is examined (R67). -/
def valRangeResponse (cfg : Config) (field : FieldBits) (value : Int) : Response :=
  match fieldOfBits field with
  | none => .error (.illegalField field)
  | some f =>
    match checkRange cfg f value with
    | some e => .error e
    | none => .ok .statusOnly

/-- VAL_EXCL (R92). -/
def valExclResponse (flags : Flags) : Response :=
  match checkExclusive flags with
  | some e => .error e
  | none => .ok .statusOnly

/-- The meaning of VAL_RANGE (R90). -/
def execValRange (field : FieldBits) (value : Int) (s : State) : Host.Outcome State Fault Refusal :=
  answer (valRangeResponse s.cfg field value) s

/-- The meaning of VAL_EXCL (R92). -/
def execValExcl (flags : Flags) (s : State) : Host.Outcome State Fault Refusal := answer (valExclResponse flags) s

end Sys2Proof.Machine
end

