-- ==== Sys2Proof/Machine/Dispatch.lean ====
section
/-! DEFINITION. The dispatch: one arm per operation, each a direct call of its meaning. -/

namespace Sys2Proof.Machine

def exec (i : Instr) (s : State) : Host.Outcome State Fault Refusal :=
  match i with
  | .cksum address c1 c2 d1 d2 => Sys2Proof.Machine.execCksum address c1 c2 d1 d2 s
  | .encRaw address c1 c2 d1 d2 checksumIn => Sys2Proof.Machine.execEncRaw address c1 c2 d1 d2 checksumIn s
  | .decCmd input => Sys2Proof.Machine.execDecCmd input s
  | .decGen input => Sys2Proof.Machine.execDecGen input s
  | .decExt input expectedOpcode => Sys2Proof.Machine.execDecExt input expectedOpcode s
  | .valRange field value => Sys2Proof.Machine.execValRange field value s
  | .valExcl flags => Sys2Proof.Machine.execValExcl flags s
  | .encStd address flags panSpeed tiltSpeed => Sys2Proof.Machine.execEncStd address flags panSpeed tiltSpeed s
  | .encExt address opcode subOpcode payload16 => Sys2Proof.Machine.execEncExt address opcode subOpcode payload16 s

end Sys2Proof.Machine
end

