-- ==== Sys2Proof/Machine/Handshake.lean ====
section
/-! DEFINITION. The handshake between host and codec (10_state.md R13, R14; 70_reset_and_hazards.md R121, R125, R130) and the placing of a
request for the codec to serve. -/

namespace Sys2Proof.Machine

/-- Serve a request: decode its selector first; a reserved selector raises IllegalOperation with nothing else examined
(30_encoding.md R65, 60_exceptions.md R106). -/
def serve (req : Request) (s : State) : Host.Outcome State Fault Refusal :=
  match decode req with
  | .ok i => exec i s
  | .error (.reservedSelector op) => raise (.illegalOperation op) s

/-- Whether the response just delivered is OK: what the host looks at before it goes on with a pseudo-operation
(30_encoding.md R69). -/
def State.lastOk (s : State) : Bool :=
  match s.response with
  | some r => r.isOk
  | none => false

/-- A move while the codec is IDLE. With no move to come the block waits (DEDUCED, assumption log 12). -/
def idleStep (s : State) : Host.Outcome State Fault Refusal :=
  match s.schedule with
  | [] => .next s
  | .submit req :: rest => .next (State.accept { s with schedule := rest } req)
  | .submitIfOk req :: rest =>
    if s.lastOk then .next (State.accept { s with schedule := rest } req) else .next { s with schedule := rest }
  | .reset :: rest => .next (State.resetBlock { s with schedule := rest })
  | .codec :: rest => .next { s with schedule := rest }
  | .pass :: rest => .next { s with schedule := rest }

/-- A move while the codec is BUSY(req). The host has no submit move here (R125): a submit waits until the held request has been
answered (DESIGN CHOICE, assumption log 2). With no move to come the codec answers (the fairness of R130; DESIGN CHOICE,
assumption log 11). -/
def busyStep (req : Request) (s : State) : Host.Outcome State Fault Refusal :=
  match s.schedule with
  | [] => serve req s
  | .submit _ :: _ => serve req s
  | .submitIfOk _ :: _ => serve req s
  | .reset :: rest => .next (State.resetBlock { s with schedule := rest })
  | .codec :: rest => serve req { s with schedule := rest }
  | .pass :: rest => .next { s with schedule := rest }

/-- Hold a request for the codec and give the codec the next turn; the moves that were to come stay behind it. -/
def State.placeRequest (s : State) (req : Request) : State :=
  { s.accept req with schedule := .codec :: s.schedule }

end Sys2Proof.Machine
end

