-- ==== Sys2Proof/Machine/Step.lean ====
section
/-! DEFINITION. One step of the machine, and the placing of a table word where the next step fetches its request. -/

namespace Sys2Proof.Machine

/-- One step (10_state.md R14): by the handshake state, the next move of the schedule. -/
def step (s : State) : Host.Outcome State Fault Refusal :=
  match s.hs with
  | .idle => idleStep s
  | .busy req => busyStep req s

/-- The state with the request of a table word held for the codec, so that the very next step serves it (DESIGN CHOICE,
assumption log 7). -/
def State.withFetchWord (s : State) (_nbits w : Nat) : State := s.placeRequest (tableRequest w)

end Sys2Proof.Machine
end

