-- ==== Sys2Proof/Machine/Respond.lean ====
section
/-! DEFINITION. The pure function `exec(cfg, req)` of the rules (00_scope.md R6, 10_state.md R14): the response to a request, from the
request and the configuration alone. -/

namespace Sys2Proof.Machine

/-- The response to an operation. -/
def instrResponse (cfg : Config) : Instr → Response
  | .cksum address c1 c2 d1 d2 => cksumResponse address c1 c2 d1 d2
  | .encRaw address c1 c2 d1 d2 checksumIn => encRawResponse address c1 c2 d1 d2 checksumIn
  | .decCmd input => decCmdResponse input
  | .decGen input => decGenResponse cfg input
  | .decExt input expectedOpcode => decExtResponse input expectedOpcode
  | .valRange field value => valRangeResponse cfg field value
  | .valExcl flags => valExclResponse flags
  | .encStd address flags panSpeed tiltSpeed => encStdResponse cfg address flags panSpeed tiltSpeed
  | .encExt address opcode subOpcode payload16 => encExtResponse cfg address opcode subOpcode payload16

/-- The response to a request, a reserved selector included (30_encoding.md R65). -/
def respond (cfg : Config) (req : Request) : Response :=
  match decode req with
  | .ok i => instrResponse cfg i
  | .error (.reservedSelector op) => .error (.illegalOperation op)

end Sys2Proof.Machine
end

