-- ==== Sys2Proof/Machine/Pseudo.lean ====
section
/-! DEFINITION. Programs and pseudo-operations (30_encoding.md R62, R69 to R78): a program is the requests in order; a pseudo-operation
expands to one or two requests, the second issued only if the first was answered OK. -/

namespace Sys2Proof.Machine

/-- One flag with one speed on each axis (30_encoding.md R71, R73). -/
def oneFlag (address : Byte) (f : Flag) (panSpeed tiltSpeed : Byte) : Instr :=
  .encStd address (flagSet [f]) panSpeed tiltSpeed

/-- GOTO_PRESET (30_encoding.md R74): the range check of the id, then the Extended frame that carries it. The payload of an id
that passes the check is its zero extension (DEDUCED, assumption log 10). -/
def gotoPreset (cfg : Config) (address : Byte) (id : Int) : List Instr :=
  [.valRange (BitVec.ofNat 5 (fieldNumber .presetId)) id,
   .encExt address cfg.gotoPresetOpcode (some 0x00) (BitVec.ofInt 16 id)]

/-- The operations a pseudo-operation expands to (30_encoding.md R70 to R76). PAN_TILT takes any flag vector (DEDUCED, assumption
log 17). -/
def expand (cfg : Config) : Pseudo → List Instr
  | .stop address => [.encStd address 0 0 0]
  | .panLeft address speed => [oneFlag address .panLeft speed 0]
  | .panRight address speed => [oneFlag address .panRight speed 0]
  | .tiltUp address speed => [oneFlag address .tiltUp 0 speed]
  | .tiltDown address speed => [oneFlag address .tiltDown 0 speed]
  | .panTilt address flags panSpeed tiltSpeed => [.encStd address flags panSpeed tiltSpeed]
  | .zoomTele address => [oneFlag address .zoomTele 0 0]
  | .zoomWide address => [oneFlag address .zoomWide 0 0]
  | .focusNear address => [oneFlag address .focusNear 0 0]
  | .focusFar address => [oneFlag address .focusFar 0 0]
  | .irisOpen address => [oneFlag address .irisOpen 0 0]
  | .irisClose address => [oneFlag address .irisClose 0 0]
  | .gotoPreset address id => gotoPreset cfg address id
  | .flip180 address => gotoPreset cfg address 0x21
  | .zeroPan address => gotoPreset cfg address 0x22
  | .queryPanPos address => [.encExt address 0x51 (some 0x00) 0x0000]

/-- The host's moves for a program of requests (30_encoding.md R62). -/
def programMoves (reqs : List Request) : List Move := reqs.map Move.submit

/-- The host's moves for a sequence that stops at its first error (30_encoding.md R69). -/
def sequenceMoves : List Instr → List Move
  | [] => []
  | i :: rest => .submit (encode i) :: rest.map (fun j => Move.submitIfOk (encode j))

/-- The host's moves for a pseudo-operation (30_encoding.md R69). -/
def pseudoMoves (cfg : Config) (p : Pseudo) : List Move := sequenceMoves (expand cfg p)

end Sys2Proof.Machine
end

