-- ==== Sys2Proof/Machine/Assembler.lean ====
section
/-! DEFINITION. The written form of requests and responses (30_encoding.md R61): one line of text becomes the host's moves, and a response
becomes its text. This is notation the host uses; the codec itself only sees requests. -/

namespace Sys2Proof.Machine

/-- Why a line is not a request of the notation. -/
inductive AsmError where
  | badCharacter
  | badForm
  | unknownMnemonic
  | unexpectedOperand
  | repeatedOperand
  | missingOperand (name : String)
  | badValue (name : String)
  deriving DecidableEq, Repr

/-- The tokens of a line. -/
inductive Token where
  | word (w : List Char)
  | equals
  | comma
  | openBracket
  | closeBracket
  | openBrace
  | closeBrace
  deriving DecidableEq, Repr

/-- An operand as written: a word, an octet sequence in brackets, or a set of names in braces. -/
inductive AsmValue where
  | atom (w : List Char)
  | octets (ws : List (List Char))
  | names (ws : List (List Char))
  deriving DecidableEq, Repr

/-- The left brace, written by its code. -/
def leftBrace : Char := Char.ofNat 0x7B

/-- The right brace, written by its code. -/
def rightBrace : Char := Char.ofNat 0x7D

/-- The token of a punctuation mark. -/
def punctuation (c : Char) : Option Token :=
  if c = '=' then some .equals
  else if c = ',' then some .comma
  else if c = '[' then some .openBracket
  else if c = ']' then some .closeBracket
  else if c = leftBrace then some .openBrace
  else if c = rightBrace then some .closeBrace
  else none

/-- The characters of names and numbers. -/
def isWordChar (c : Char) : Bool := c.isAlphanum || c == '_' || c == '-'

/-- End the word read so far. -/
def endWord (acc : List Char) (ts : List Token) : List Token := if acc.isEmpty then ts else .word acc :: ts

/-- Cut a line into tokens; a semicolon starts a comment (R62). -/
def tokens : List Char → List Char → Except AsmError (List Token)
  | acc, [] => .ok (endWord acc [])
  | acc, c :: cs =>
    if c = ';' then .ok (endWord acc [])
    else if c.isWhitespace then (tokens [] cs).map (endWord acc)
    else if isWordChar c then tokens (acc ++ [c]) cs
    else
      match punctuation c with
      | some t => (tokens [] cs).map (fun ts => endWord acc (t :: ts))
      | none => .error .badCharacter

/-- The octets up to the closing bracket, and what follows it. -/
def readOctets : List Token → Option (List (List Char) × List Token)
  | .closeBracket :: ts => some ([], ts)
  | .word w :: ts => (readOctets ts).map (fun p => (w :: p.1, p.2))
  | _ => none

/-- The names after the first of a set, up to the closing brace, and what follows it. -/
def readNames : List Token → Option (List (List Char) × List Token)
  | .closeBrace :: ts => some ([], ts)
  | .comma :: .word w :: ts => (readNames ts).map (fun p => (w :: p.1, p.2))
  | _ => none

/-- One operand value and what follows it. -/
def readValue : List Token → Option (AsmValue × List Token)
  | .word w :: ts => some (.atom w, ts)
  | .openBracket :: ts => (readOctets ts).map (fun p => (.octets p.1, p.2))
  | .openBrace :: .closeBrace :: ts => some (.names [], ts)
  | .openBrace :: .word w :: ts => (readNames ts).map (fun p => (.names (w :: p.1), p.2))
  | _ => none

/-- The operands of a line: `name=value`, separated by commas. -/
def readOperands : Nat → List Token → Option (List (String × AsmValue))
  | fuel + 1, .word name :: .equals :: ts =>
    match readValue ts with
    | some (v, []) => some [(String.ofList name, v)]
    | some (v, .comma :: rest) => (readOperands fuel rest).map (fun ops => (String.ofList name, v) :: ops)
    | _ => none
  | _, _ => none

/-- The value of a digit in base 10 or 16. -/
def digitValue (base : Nat) (c : Char) : Option Nat :=
  let v :=
    if '0' ≤ c ∧ c ≤ '9' then c.toNat - '0'.toNat
    else if 'A' ≤ c ∧ c ≤ 'F' then c.toNat - 'A'.toNat + 10
    else if 'a' ≤ c ∧ c ≤ 'f' then c.toNat - 'a'.toNat + 10
    else base
  if v < base then some v else none

/-- A number written by its digits, given the digits already read. -/
def digitsValue (base : Nat) : Nat → List Char → Option Nat
  | acc, [] => some acc
  | acc, c :: cs => (digitValue base c).bind (fun d => digitsValue base (acc * base + d) cs)

/-- A number in decimal or, after `0x`, in hexadecimal (R61). -/
def natOf : List Char → Option Nat
  | [] => none
  | '0' :: 'x' :: c :: cs => digitsValue 16 0 (c :: cs)
  | c :: cs => digitsValue 10 0 (c :: cs)

/-- A number with an optional minus sign. -/
def intOf : List Char → Option Int
  | '-' :: cs => (natOf cs).map (fun n => -(n : Int))
  | cs => (natOf cs).map (fun n => (n : Int))

/-- An octet: two hexadecimal digits (R61). -/
def octetOf : List Char → Option Byte
  | [h, l] => (digitsValue 16 0 [h, l]).map (BitVec.ofNat 8)
  | _ => none

/-- The written name of a flag (30_encoding.md R51). -/
def flagName : Flag → String
  | .sense => "SENSE"
  | .scan => "SCAN"
  | .camera => "CAMERA"
  | .irisClose => "IRIS_CLOSE"
  | .irisOpen => "IRIS_OPEN"
  | .focusNear => "FOCUS_NEAR"
  | .focusFar => "FOCUS_FAR"
  | .zoomWide => "ZOOM_WIDE"
  | .zoomTele => "ZOOM_TELE"
  | .tiltDown => "TILT_DOWN"
  | .tiltUp => "TILT_UP"
  | .panLeft => "PAN_LEFT"
  | .panRight => "PAN_RIGHT"

/-- The written name of a field (30_encoding.md R66). -/
def fieldName : FieldId → String
  | .address => "ADDRESS"
  | .panSpeed => "PAN_SPEED"
  | .tiltSpeed => "TILT_SPEED"
  | .presetId => "PRESET_ID"
  | .auxId => "AUX_ID"
  | .zoneId => "ZONE_ID"
  | .patternId => "PATTERN_ID"
  | .zoomSpeed => "ZOOM_SPEED"
  | .focusSpeed => "FOCUS_SPEED"
  | .screenColumn => "SCREEN_COLUMN"
  | .genericByte => "GENERIC_BYTE"
  | .absPanPos => "ABS_PAN_POS"
  | .absTiltPos => "ABS_TILT_POS"
  | .absZoomPos => "ABS_ZOOM_POS"
  | .shutterSpeed => "SHUTTER_SPEED"
  | .whiteBalance => "WHITE_BALANCE"
  | .gain => "GAIN"
  | .irisLevel => "IRIS_LEVEL"

/-- An optional operand read by `f`: absent, read, or a bad value. -/
def optOperand {α : Type} (ops : List (String × AsmValue)) (name : String) (f : AsmValue → Option α) :
    Except AsmError (Option α) :=
  match ops.lookup name with
  | none => .ok none
  | some v =>
    match f v with
    | some x => .ok (some x)
    | none => .error (.badValue name)

/-- A required operand (R61: an operand may be omitted only where R26 says it is optional). -/
def operand {α : Type} (ops : List (String × AsmValue)) (name : String) (f : AsmValue → Option α) : Except AsmError α :=
  match optOperand ops name f with
  | .ok (some x) => .ok x
  | .ok none => .error (.missingOperand name)
  | .error e => .error e

/-- A number that fits `n` bits. -/
def asBits (n : Nat) : AsmValue → Option (BitVec n)
  | .atom w => (natOf w).bind (fun v => if v < 2 ^ n then some (BitVec.ofNat n v) else none)
  | _ => none

/-- A 32-bit signed integer. -/
def asInt32 : AsmValue → Option Int
  | .atom w => (intOf w).bind (fun v => if fits32 v then some v else none)
  | _ => none

/-- A byte sequence. -/
def asBytes : AsmValue → Option (List Byte)
  | .octets ws => ws.mapM octetOf
  | _ => none

/-- A set of flag names or a 13-bit number. -/
def asFlags : AsmValue → Option Flags
  | .names ws => (ws.mapM (fun w => Flag.all.find? (fun f => flagName f == String.ofList w))).map flagSet
  | v => asBits 13 v

/-- A field name or a 5-bit number. -/
def asField : AsmValue → Option FieldBits
  | .atom w =>
    match FieldId.all.find? (fun f => fieldName f == String.ofList w) with
    | some f => some (BitVec.ofNat 5 (fieldNumber f))
    | none => asBits 5 (.atom w)
  | _ => none

/-- The operand names of an operation or pseudo-operation (10_state.md R26, 30_encoding.md R70 to R76); none for a word that is no
mnemonic. -/
def operandNames (mnemonic : String) : Option (List String) :=
  match mnemonic with
  | "CKSUM" => some ["address", "c1", "c2", "d1", "d2"]
  | "ENC_RAW" => some ["address", "c1", "c2", "d1", "d2", "checksum_in"]
  | "DEC_CMD" => some ["in"]
  | "DEC_GEN" => some ["in"]
  | "DEC_EXT" => some ["in", "expected_opcode"]
  | "VAL_RANGE" => some ["field", "value"]
  | "VAL_EXCL" => some ["flags"]
  | "ENC_STD" => some ["address", "flags", "pan_speed", "tilt_speed"]
  | "ENC_EXT" => some ["address", "opcode", "sub_opcode", "payload16"]
  | "PAN_LEFT" => some ["address", "speed"]
  | "PAN_RIGHT" => some ["address", "speed"]
  | "TILT_UP" => some ["address", "speed"]
  | "TILT_DOWN" => some ["address", "speed"]
  | "PAN_TILT" => some ["address", "flags", "pan_speed", "tilt_speed"]
  | "GOTO_PRESET" => some ["address", "id"]
  | "STOP" => some ["address"]
  | "ZOOM_TELE" => some ["address"]
  | "ZOOM_WIDE" => some ["address"]
  | "FOCUS_NEAR" => some ["address"]
  | "FOCUS_FAR" => some ["address"]
  | "IRIS_OPEN" => some ["address"]
  | "IRIS_CLOSE" => some ["address"]
  | "FLIP_180" => some ["address"]
  | "ZERO_PAN" => some ["address"]
  | "QUERY_PAN_POS" => some ["address"]
  | _ => none

/-- The operations of a line with the given mnemonic and operands. -/
def assembleOps (cfg : Config) (mnemonic : String) (ops : List (String × AsmValue)) : Except AsmError (List Instr) :=
  let byte (name : String) : Except AsmError Byte := operand ops name (asBits 8)
  let at1 (f : Byte → Pseudo) : Except AsmError (List Instr) := do
    let address ← byte "address"
    return expand cfg (f address)
  let at2 (f : Byte → Byte → Pseudo) : Except AsmError (List Instr) := do
    let address ← byte "address"
    let speed ← byte "speed"
    return expand cfg (f address speed)
  match mnemonic with
  | "CKSUM" => do
    return [.cksum (← byte "address") (← byte "c1") (← byte "c2") (← byte "d1") (← byte "d2")]
  | "ENC_RAW" => do
    return [.encRaw (← byte "address") (← byte "c1") (← byte "c2") (← byte "d1") (← byte "d2")
      (← optOperand ops "checksum_in" (asBits 8))]
  | "DEC_CMD" => do return [.decCmd (← operand ops "in" asBytes)]
  | "DEC_GEN" => do return [.decGen (← operand ops "in" asBytes)]
  | "DEC_EXT" => do return [.decExt (← operand ops "in" asBytes) (← byte "expected_opcode")]
  | "VAL_RANGE" => do return [.valRange (← operand ops "field" asField) (← operand ops "value" asInt32)]
  | "VAL_EXCL" => do return [.valExcl (← operand ops "flags" asFlags)]
  | "ENC_STD" => do
    return [.encStd (← byte "address") (← operand ops "flags" asFlags) (← byte "pan_speed") (← byte "tilt_speed")]
  | "ENC_EXT" => do
    return [.encExt (← byte "address") (← byte "opcode") (← optOperand ops "sub_opcode" (asBits 8))
      (← operand ops "payload16" (asBits 16))]
  | "PAN_TILT" => do
    return expand cfg (.panTilt (← byte "address") (← operand ops "flags" asFlags) (← byte "pan_speed") (← byte "tilt_speed"))
  | "GOTO_PRESET" => do return expand cfg (.gotoPreset (← byte "address") (← operand ops "id" asInt32))
  | "PAN_LEFT" => at2 .panLeft
  | "PAN_RIGHT" => at2 .panRight
  | "TILT_UP" => at2 .tiltUp
  | "TILT_DOWN" => at2 .tiltDown
  | "STOP" => at1 .stop
  | "ZOOM_TELE" => at1 .zoomTele
  | "ZOOM_WIDE" => at1 .zoomWide
  | "FOCUS_NEAR" => at1 .focusNear
  | "FOCUS_FAR" => at1 .focusFar
  | "IRIS_OPEN" => at1 .irisOpen
  | "IRIS_CLOSE" => at1 .irisClose
  | "FLIP_180" => at1 .flip180
  | "ZERO_PAN" => at1 .zeroPan
  | "QUERY_PAN_POS" => at1 .queryPanPos
  | _ => .error .unknownMnemonic

/-- The operations a line of text asks for; a blank or comment line asks for none (R61, R62). An operand name that is not one of
the mnemonic's, or that stands twice, is rejected (DESIGN CHOICE, assumption log 15). -/
def parseLine (cfg : Config) (line : String) : Except AsmError (List Instr) :=
  match tokens [] line.toList with
  | .error e => .error e
  | .ok [] => .ok []
  | .ok (.word m :: ts) =>
    match operandNames (String.ofList m), readOperands ts.length ts with
    | none, _ => .error .unknownMnemonic
    | some _, none => .error .badForm
    | some names, some ops =>
      if ops.any (fun p => !names.contains p.1) then .error .unexpectedOperand
      else if ¬ (ops.map Prod.fst).Nodup then .error .repeatedOperand
      else assembleOps cfg (String.ofList m) ops
  | .ok _ => .error .badForm

/-- The host's moves for a program, one line a request or pseudo-operation (R62, R69). -/
def assemble (cfg : Config) (lines : List String) : Except AsmError (List Move) :=
  (lines.mapM (parseLine cfg)).map (fun instrs => (instrs.map sequenceMoves).flatten)

/-- A hexadecimal digit. -/
def hexDigit (n : Nat) : Char := ("0123456789ABCDEF".toList).getD n '0'

/-- The lowest `digits` hexadecimal digits of a number, most significant first. -/
def hexDigits : Nat → Nat → List Char
  | 0, _ => []
  | digits + 1, n => hexDigits digits (n / 16) ++ [hexDigit (n % 16)]

/-- A byte as `0xNN`. -/
def byteText (b : Byte) : String := "0x" ++ String.ofList (hexDigits 2 b.toNat)

/-- Octets in wire order, in brackets. -/
def octetsText (bs : List Byte) : String :=
  "[" ++ String.intercalate " " (bs.map (fun b => String.ofList (hexDigits 2 b.toNat))) ++ "]"

/-- Named fields, separated by commas. -/
def fieldsText (fs : List (String × String)) : String :=
  String.intercalate ", " (fs.map (fun p => p.1 ++ "=" ++ p.2))

/-- A record in braces. -/
def recordText (fs : List (String × String)) : String :=
  String.ofList [leftBrace] ++ fieldsText fs ++ String.ofList [rightBrace]

/-- The result fields of an OK response (R27, R61). -/
def resultText : Result → String
  | .checksum v => " checksum=" ++ byteText v
  | .frame f => " frame=" ++ octetsText f.toList
  | .cmd r =>
    " cmd=" ++ recordText [("address", byteText r.address), ("command_1", byteText r.command1),
      ("command_2", byteText r.command2), ("data_1", byteText r.data1), ("data_2", byteText r.data2),
      ("checksum", byteText r.checksum)]
  | .gen r =>
    " gen=" ++ recordText [("address", byteText r.address), ("alarm", byteText r.alarm), ("checksum", byteText r.checksum)]
  | .ext r =>
    " ext=" ++ recordText [("address", byteText r.address), ("response_1", byteText r.response1),
      ("response_2", byteText r.response2), ("data_1", byteText r.data1), ("data_2", byteText r.data2),
      ("checksum", byteText r.checksum), ("data16", "0x" ++ String.ofList (hexDigits 4 r.data16.toNat))]
  | .statusOnly => ""

/-- An error with its information (60_exceptions.md R103, R61). -/
def errorText : Error → String
  | .badLength expected actual => "BadLength(" ++ fieldsText [("expected", toString expected), ("actual", toString actual)] ++ ")"
  | .badSync received => "BadSync(" ++ fieldsText [("received", byteText received)] ++ ")"
  | .checksumMismatch received computed =>
    "ChecksumMismatch(" ++ fieldsText [("received", byteText received), ("computed", byteText computed)] ++ ")"
  | .unexpectedOpcode expected received =>
    "UnexpectedOpcode(" ++ fieldsText [("expected", byteText expected), ("received", byteText received)] ++ ")"
  | .outOfRange field value min max =>
    "OutOfRange(" ++ fieldsText [("field", fieldName field), ("value", toString value), ("min", toString min),
      ("max", toString max)] ++ ")"
  | .conflictingFlags groups =>
    "ConflictingFlags(groups=0b" ++
      String.ofList ([4, 3, 2, 1, 0].map (fun k => if groups.getLsbD k then '1' else '0')) ++ ")"
  | .evenOpcode opcode => "EvenOpcode(opcode=" ++ byteText opcode ++ ")"
  | .illegalOperation op => "IllegalOperation(op=0x" ++ String.ofList (hexDigits 1 op.toNat) ++ ")"
  | .illegalField field => "IllegalField(field=" ++ toString field.toNat ++ ")"

/-- The written form of a response (R61). -/
def responseText : Response → String
  | .ok r => "-> OK" ++ resultText r
  | .error e => "-> " ++ errorText e

end Sys2Proof.Machine
end

