-- ==== Sys2Proof/Safety.lean ====
section
/-! DEFINITION. What a good state of the machine is: every response ever delivered says something true about itself, and the response output
agrees with the handshake. -/

namespace Sys2Proof.Machine

/-- A frame the block may output: the sync byte, then five bytes, then their sum modulo 256 (30_encoding.md R45, R46). -/
def Frame.Sound (f : Frame) : Prop :=
  f.b0 = 0xFF ∧ f.b6.toNat = (f.b1.toNat + f.b2.toNat + f.b3.toNat + f.b4.toNat + f.b5.toNat) % 256

/-- The invariants of the result records (10_state.md R28 to R30). -/
def Result.Sound (cfg : Config) : Result → Prop
  | .checksum _ => True
  | .frame f => f.Sound
  | .cmd r =>
    r.checksum.toNat = (r.address.toNat + r.command1.toNat + r.command2.toNat + r.data1.toNat + r.data2.toNat) % 256
  | .gen r => cfg.verifyGeneralChecksum = true → r.checksum.toNat = (r.address.toNat + r.alarm.toNat) % 256
  | .ext r =>
    r.checksum.toNat = (r.address.toNat + r.response1.toNat + r.response2.toNat + r.data1.toNat + r.data2.toNat) % 256 ∧
      r.data16.toNat = r.data1.toNat * 256 + r.data2.toNat
  | .statusOnly => True

/-- The information of an error shows its cause (60_exceptions.md R103). -/
def Error.Sound (cfg : Config) : Error → Prop
  | .badLength expected actual => (expected = 7 ∨ expected = 4) ∧ actual ≠ expected
  | .badSync received => received ≠ 0xFF
  | .checksumMismatch received computed => received ≠ computed
  | .unexpectedOpcode expected received => expected ≠ received
  | .outOfRange field value min max => (min, max) = rangeOf cfg field ∧ (value < min ∨ max < value)
  | .conflictingFlags groups => groups ≠ 0
  | .evenOpcode opcode => cfg.extOpcodeOddCheck = true ∧ opcode.toNat % 2 = 0
  | .illegalOperation op => 9 ≤ op.toNat
  | .illegalField field => 18 ≤ field.toNat

/-- A response that says something true about itself. -/
def Response.Sound (cfg : Config) : Response → Prop
  | .ok r => r.Sound cfg
  | .error e => e.Sound cfg

/-- The invariant of the machine. What a sound response says is the spec's; the clauses about the output and the host's list rest on
the model's choices (assumption log 5 and 6), and what a legal configuration is on assumption log 16. -/
structure State.Inv (s : State) : Prop where
  /-- The configuration is legal (00_scope.md R8; that only 63 is legal for the tilt speed is DEDUCED, assumption log 16). -/
  legal : s.cfg.legal = true
  /-- While a request is held, the output shows no response: the model clears it at the acceptance (DESIGN CHOICE, assumption log 5;
  10_state.md R14 says only that the request is held until its response is delivered). -/
  quiet : ∀ req, s.hs = .busy req → s.response = none
  /-- The response at the output is the one the host received last: the model holds the output until the next acceptance or a reset
  (DESIGN CHOICE, assumption log 5) and keeps the host's list (DESIGN CHOICE, assumption log 6). -/
  latest : ∀ r, s.response = some r → s.received.getLast? = some r
  /-- Every response the host has received is sound (the list is the model's own field, assumption log 6). -/
  sound : ∀ r ∈ s.received, r.Sound s.cfg

end Sys2Proof.Machine
end

