-- ==== Sys2Proof/Certificates/Slice0/Obligations.lean ====
section
/-! DEFINITION. The statements about the codec that the provers settle. The helpers above them are written from the rules of the spec and not
from the model's own operations, so that a statement says what the spec says. -/

open Sys2Proof Sys2Proof.Machine

namespace Sys2Proof.Stated

/-- The state after the codec delivers `r`: IDLE, `r` at the output and received by the host; the configuration and the moves to
come are as before (10_state.md R14). -/
def answered (s : State) (r : Response) : State :=
  { s with hs := .idle, response := some r, received := s.received ++ [r] }

/-- The sum of five bytes modulo 256 (00_scope.md R10). -/
def fiveSum (a b c d e : Byte) : Byte := BitVec.ofNat 8 ((a.toNat + b.toNat + c.toNat + d.toNat + e.toNat) % 256)

/-- The sum of two bytes modulo 256. -/
def twoSum (a b : Byte) : Byte := BitVec.ofNat 8 ((a.toNat + b.toNat) % 256)

/-- The bytes of a frame in wire order. -/
def wire (f : Frame) : List Byte := [f.b0, f.b1, f.b2, f.b3, f.b4, f.b5, f.b6]

/-- Both flags of exclusion group `k` are set (30_encoding.md R52). -/
def opposed (flags : Flags) (k : Nat) : Prop := flags.getLsbD (2 * k + 1) = true ∧ flags.getLsbD (2 * k) = true

/-- `PAN_SPEED_MAX` as a number (10_state.md R19). -/
def panMax (c : Config) : Nat := if c.panSpeedMax = .max64 then 64 else 63

/-- `PRESET_ID_MIN` as a number (10_state.md R21). -/
def presetMin (c : Config) : Nat := if c.presetIdMin = .min2 then 2 else 1

/-- The range table of 41_validator.md R89: field number, min, max. -/
def rangeRows (c : Config) : List (Nat × Nat × Nat) :=
  [(0, 1, 255), (1, 0, panMax c), (2, 0, c.tiltSpeedMax.toNat), (3, presetMin c, 255), (4, 1, 8), (5, 1, 255),
   (6, 0, 8), (7, 0, 3), (8, 0, 3), (9, 0, 39), (10, 0, 255), (11, 0, 65535), (12, 0, 65535), (13, 0, 65535),
   (14, 0, 65535), (15, 0, 65535), (16, 0, 65535), (17, 0, 65535)]

/-- The bit of a frame at a flag position: `c1` is byte 2, `c2` is byte 3 (30_encoding.md R45, 10_state.md R24). -/
def frameBit (f : Frame) (p : FlagPos) : Bool :=
  match p.byte with
  | .c1 => f.b2.getLsbD p.bit.val
  | .c2 => f.b3.getLsbD p.bit.val

/-- The operations of 40_codec.md that read no configuration (R88). -/
def readsNoConfig : Instr → Bool
  | .cksum _ _ _ _ _ | .encRaw _ _ _ _ _ _ | .decCmd _ | .decExt _ _ => true
  | .decGen _ | .valRange _ _ | .valExcl _ | .encStd _ _ _ _ | .encExt _ _ _ _ => false

/-- The next event is the codec's answer, and `rest` are the moves after it: the schedule gives the codec its turn, or it is empty,
or the host waits to submit. The cases are the model's: the schedule is assumption log 1, the waiting submit assumption log 2, the
answer when no move is left assumption log 11. -/
def codecTurn (s : State) (rest : List Move) : Prop :=
  s.schedule = .codec :: rest ∨
    (rest = s.schedule ∧
      (s.schedule = [] ∨ ∃ req more, s.schedule = .submit req :: more ∨ s.schedule = .submitIfOk req :: more))

/-- The responses up to and with the first error (30_encoding.md R69). -/
def upToFirstError : List Response → List Response
  | [] => []
  | .ok r :: rest => .ok r :: upToFirstError rest
  | .error e :: _ => [.error e]

end Sys2Proof.Stated

open Sys2Proof.Stated

/-! ## The codec family -/

/-- CKSUM delivers the sum of its five operands modulo 256 (40_codec.md R79). -/
def Obligations.CksumDeliversSumModulo256 : Prop :=
  ∀ (a c1 c2 d1 d2 : Byte) (s : State),
    exec (.cksum a c1 c2 d1 d2) s = .next (answered s (.ok (.checksum (fiveSum a c1 c2 d1 d2))))

/-- The order of CKSUM's operands does not change what it does (40_codec.md R79, corner cases). -/
def Obligations.CksumIgnoresOperandOrder : Prop :=
  ∀ (a c1 c2 d1 d2 a' c1' c2' d1' d2' : Byte) (s : State),
    [a, c1, c2, d1, d2].Perm [a', c1', c2', d1', d2'] →
      exec (.cksum a c1 c2 d1 d2) s = exec (.cksum a' c1' c2' d1' d2') s

/-- ENC_RAW delivers the frame of its five field bytes with a recomputed checksum, whatever checksum the caller gives, and address
0 included (40_codec.md R80). -/
def Obligations.EncRawDeliversFrame : Prop :=
  ∀ (a c1 c2 d1 d2 : Byte) (given : Option Byte) (s : State),
    exec (.encRaw a c1 c2 d1 d2 given) s =
      .next (answered s (.ok (.frame ⟨0xFF, a, c1, c2, d1, d2, fiveSum a c1 c2 d1 d2⟩)))

/-- What DEC_CMD answers to every buffer: length, then sync, then checksum, then the record (40_codec.md R81). -/
def Obligations.DecCmdAnswersEveryBuffer : Prop :=
  (∀ (input : List Byte) (s : State), input.length ≠ 7 →
    exec (.decCmd input) s = .next (answered s (.error (.badLength 7 input.length)))) ∧
  (∀ (b0 b1 b2 b3 b4 b5 b6 : Byte) (s : State), b0 ≠ 0xFF →
    exec (.decCmd [b0, b1, b2, b3, b4, b5, b6]) s = .next (answered s (.error (.badSync b0)))) ∧
  (∀ (b1 b2 b3 b4 b5 b6 : Byte) (s : State), b6 ≠ fiveSum b1 b2 b3 b4 b5 →
    exec (.decCmd [0xFF, b1, b2, b3, b4, b5, b6]) s =
      .next (answered s (.error (.checksumMismatch b6 (fiveSum b1 b2 b3 b4 b5))))) ∧
  (∀ (b1 b2 b3 b4 b5 : Byte) (s : State),
    exec (.decCmd [0xFF, b1, b2, b3, b4, b5, fiveSum b1 b2 b3 b4 b5]) s =
      .next (answered s (.ok (.cmd ⟨b1, b2, b3, b4, b5, fiveSum b1 b2 b3 b4 b5⟩))))

/-- What DEC_GEN answers to every buffer, the checksum being verified only when the configuration says so (40_codec.md R82; the
reply's checksum formula is the spec's decision D12). -/
def Obligations.DecGenAnswersEveryBuffer : Prop :=
  (∀ (input : List Byte) (s : State), input.length ≠ 4 →
    exec (.decGen input) s = .next (answered s (.error (.badLength 4 input.length)))) ∧
  (∀ (b0 b1 b2 b3 : Byte) (s : State), b0 ≠ 0xFF →
    exec (.decGen [b0, b1, b2, b3]) s = .next (answered s (.error (.badSync b0)))) ∧
  (∀ (b1 b2 b3 : Byte) (s : State), s.cfg.verifyGeneralChecksum = true → b3 ≠ twoSum b1 b2 →
    exec (.decGen [0xFF, b1, b2, b3]) s = .next (answered s (.error (.checksumMismatch b3 (twoSum b1 b2))))) ∧
  (∀ (b1 b2 b3 : Byte) (s : State), s.cfg.verifyGeneralChecksum = false ∨ b3 = twoSum b1 b2 →
    exec (.decGen [0xFF, b1, b2, b3]) s = .next (answered s (.ok (.gen ⟨b1, b2, b3⟩))))

/-- What DEC_EXT answers to every buffer and expected opcode: length, sync, checksum, opcode, then the record with the big-endian
16-bit view of its data (40_codec.md R83). -/
def Obligations.DecExtAnswersEveryBuffer : Prop :=
  (∀ (input : List Byte) (expected : Byte) (s : State), input.length ≠ 7 →
    exec (.decExt input expected) s = .next (answered s (.error (.badLength 7 input.length)))) ∧
  (∀ (b0 b1 b2 b3 b4 b5 b6 expected : Byte) (s : State), b0 ≠ 0xFF →
    exec (.decExt [b0, b1, b2, b3, b4, b5, b6] expected) s = .next (answered s (.error (.badSync b0)))) ∧
  (∀ (b1 b2 b3 b4 b5 b6 expected : Byte) (s : State), b6 ≠ fiveSum b1 b2 b3 b4 b5 →
    exec (.decExt [0xFF, b1, b2, b3, b4, b5, b6] expected) s =
      .next (answered s (.error (.checksumMismatch b6 (fiveSum b1 b2 b3 b4 b5))))) ∧
  (∀ (b1 b2 b3 b4 b5 expected : Byte) (s : State), b3 ≠ expected →
    exec (.decExt [0xFF, b1, b2, b3, b4, b5, fiveSum b1 b2 b3 b4 b5] expected) s =
      .next (answered s (.error (.unexpectedOpcode expected b3)))) ∧
  (∀ (b1 b2 b3 b4 b5 : Byte) (s : State),
    exec (.decExt [0xFF, b1, b2, b3, b4, b5, fiveSum b1 b2 b3 b4 b5] b3) s =
      .next (answered s (.ok (.ext ⟨b1, b2, b3, b4, b5, fiveSum b1 b2 b3 b4 b5,
        BitVec.ofNat 16 (b4.toNat * 256 + b5.toNat)⟩))))

/-- Encode then decode gives the fields back (40_codec.md R84). -/
def Obligations.RawEncodeThenDecodeIsIdentity : Prop :=
  ∀ (a c1 c2 d1 d2 : Byte) (given : Option Byte) (s t : State),
    ∃ f : Frame, exec (.encRaw a c1 c2 d1 d2 given) s = .next (answered s (.ok (.frame f))) ∧
      exec (.decCmd (wire f)) t = .next (answered t (.ok (.cmd ⟨a, c1, c2, d1, d2, fiveSum a c1 c2 d1 d2⟩)))

/-- A buffer DEC_CMD accepts is the frame ENC_RAW makes of the decoded fields, and DEC_CMD accepts exactly the frames of ENC_RAW
(40_codec.md R85). -/
def Obligations.DecodeThenRawEncodeIsIdentity : Prop :=
  (∀ (input : List Byte) (r : CommandRecord) (given : Option Byte) (s t : State),
    exec (.decCmd input) s = .next (answered s (.ok (.cmd r))) →
      ∃ f : Frame, wire f = input ∧
        exec (.encRaw r.address r.command1 r.command2 r.data1 r.data2 given) t = .next (answered t (.ok (.frame f)))) ∧
  (∀ (input : List Byte) (s : State),
    (∃ r : CommandRecord, exec (.decCmd input) s = .next (answered s (.ok (.cmd r)))) ↔
      ∃ (a c1 c2 d1 d2 : Byte) (f : Frame),
        exec (.encRaw a c1 c2 d1 d2 none) s = .next (answered s (.ok (.frame f))) ∧ wire f = input)

/-- Changing one byte in positions 1 to 6 of a valid command frame or extended reply makes the checksum test fail; a change of the
five covered bytes that keeps their sum modulo 256 is not detected (40_codec.md R86). -/
def Obligations.ChecksumDetectsOneChangedByte : Prop :=
  (∀ (input : List Byte) (r : CommandRecord) (i : Nat) (b : Byte) (s : State),
    exec (.decCmd input) s = .next (answered s (.ok (.cmd r))) → 1 ≤ i → i ≤ 6 → input[i]? ≠ some b →
      ∃ received computed : Byte, received ≠ computed ∧
        exec (.decCmd (input.set i b)) s = .next (answered s (.error (.checksumMismatch received computed)))) ∧
  (∀ (input : List Byte) (expected : Byte) (r : ExtendedReply) (i : Nat) (b : Byte) (s : State),
    exec (.decExt input expected) s = .next (answered s (.ok (.ext r))) → 1 ≤ i → i ≤ 6 → input[i]? ≠ some b →
      ∃ received computed : Byte, received ≠ computed ∧
        exec (.decExt (input.set i b) expected) s =
          .next (answered s (.error (.checksumMismatch received computed)))) ∧
  (∀ (b1 b2 b3 b4 b5 x1 x2 x3 x4 x5 : Byte) (s : State), fiveSum x1 x2 x3 x4 x5 = fiveSum b1 b2 b3 b4 b5 →
    exec (.decCmd [0xFF, x1, x2, x3, x4, x5, fiveSum b1 b2 b3 b4 b5]) s =
      .next (answered s (.ok (.cmd ⟨x1, x2, x3, x4, x5, fiveSum b1 b2 b3 b4 b5⟩))))

/-- Of the codec operations only DEC_GEN reads configuration, only the checksum toggle, and not even that for a reply whose checksum
is right (40_codec.md R88). -/
def Obligations.OnlyDecGenReadsTheToggle : Prop :=
  (∀ (i : Instr) (s : State) (c : Config), readsNoConfig i = true →
    ∃ r, exec i s = .next (answered s r) ∧ exec i { s with cfg := c } = .next (answered { s with cfg := c } r)) ∧
  (∀ (input : List Byte) (s : State) (c : Config), c.verifyGeneralChecksum = s.cfg.verifyGeneralChecksum →
    ∃ r, exec (.decGen input) s = .next (answered s r) ∧
      exec (.decGen input) { s with cfg := c } = .next (answered { s with cfg := c } r)) ∧
  (∀ (b0 b1 b2 : Byte) (s : State) (c : Config),
    ∃ r, exec (.decGen [b0, b1, b2, twoSum b1 b2]) s = .next (answered s r) ∧
      exec (.decGen [b0, b1, b2, twoSum b1 b2]) { s with cfg := c } = .next (answered { s with cfg := c } r))

/-! ## The validator family -/

/-- VAL_RANGE accepts exactly the values within the range table's row, both bounds included, and otherwise reports the field, the
value and the bounds in force; a reserved field id is reported whatever the value (41_validator.md R89, R90; 30_encoding.md R67). -/
def Obligations.ValRangeFollowsTheRangeTable : Prop :=
  (∀ (s : State) (row : Nat × Nat × Nat) (v : Int), row ∈ rangeRows s.cfg →
    ((row.2.1 : Int) ≤ v ∧ v ≤ (row.2.2 : Int) →
      exec (.valRange (BitVec.ofNat 5 row.1) v) s = .next (answered s (.ok .statusOnly))) ∧
    (v < (row.2.1 : Int) ∨ (row.2.2 : Int) < v →
      ∃ f : FieldId, FieldId.all[row.1]? = some f ∧
        exec (.valRange (BitVec.ofNat 5 row.1) v) s = .next (answered s (.error (.outOfRange f v row.2.1 row.2.2))))) ∧
  (∀ (field : FieldBits) (v : Int) (s : State), 18 ≤ field.toNat →
    exec (.valRange field v) s = .next (answered s (.error (.illegalField field))))

/-- VAL_EXCL is OK when no group has both flags set, and otherwise reports the mask of every conflicting group (41_validator.md
R92). -/
def Obligations.ValExclReportsEveryConflict : Prop :=
  ∀ (flags : Flags) (s : State),
    ((∀ k, k < 5 → ¬ opposed flags k) → exec (.valExcl flags) s = .next (answered s (.ok .statusOnly))) ∧
    ((∃ k, k < 5 ∧ opposed flags k) →
      ∃ m : GroupMask, (∀ k, k < 5 → (m.getLsbD k = true ↔ opposed flags k)) ∧
        exec (.valExcl flags) s = .next (answered s (.error (.conflictingFlags m))))

/-- VAL_EXCL's verdict depends only on the ten grouped flags (41_validator.md R93). -/
def Obligations.ValExclIgnoresUngroupedFlags : Prop :=
  ∀ (f g : Flags) (s : State), (∀ j, j < 10 → f.getLsbD j = g.getLsbD j) → exec (.valExcl f) s = exec (.valExcl g) s

/-! ## The shape family -/

/-- What ENC_STD answers to every request: conflicting flags first, then the address, the pan speed and the tilt speed, and then the
frame whose command bytes have exactly the bits of the set flags' positions (42_shapes.md R97). -/
def Obligations.EncStdAnswersEveryRequest : Prop :=
  (∀ (a : Byte) (flags : Flags) (p t : Byte) (s : State), (∃ k, k < 5 ∧ opposed flags k) →
    ∃ m : GroupMask, (∀ k, k < 5 → (m.getLsbD k = true ↔ opposed flags k)) ∧
      exec (.encStd a flags p t) s = .next (answered s (.error (.conflictingFlags m)))) ∧
  (∀ (flags : Flags) (p t : Byte) (s : State), (∀ k, k < 5 → ¬ opposed flags k) →
    exec (.encStd 0 flags p t) s = .next (answered s (.error (.outOfRange .address 0 1 255)))) ∧
  (∀ (a : Byte) (flags : Flags) (p t : Byte) (s : State), (∀ k, k < 5 → ¬ opposed flags k) → a ≠ 0 →
    panMax s.cfg < p.toNat →
    exec (.encStd a flags p t) s =
      .next (answered s (.error (.outOfRange .panSpeed (p.toNat : Int) 0 (panMax s.cfg))))) ∧
  (∀ (a : Byte) (flags : Flags) (p t : Byte) (s : State), (∀ k, k < 5 → ¬ opposed flags k) → a ≠ 0 →
    p.toNat ≤ panMax s.cfg → s.cfg.tiltSpeedMax.toNat < t.toNat →
    exec (.encStd a flags p t) s =
      .next (answered s (.error (.outOfRange .tiltSpeed (t.toNat : Int) 0 s.cfg.tiltSpeedMax.toNat)))) ∧
  (∀ (a : Byte) (flags : Flags) (p t : Byte) (s : State), (∀ k, k < 5 → ¬ opposed flags k) → a ≠ 0 →
    p.toNat ≤ panMax s.cfg → t.toNat ≤ s.cfg.tiltSpeedMax.toNat →
    ∃ c1 c2 : Byte,
      (∀ j : Fin 8, c1.getLsbD j.val = true ↔ ∃ f, hasFlag flags f = true ∧ s.cfg.stdFlagBitmap.pos f = ⟨.c1, j⟩) ∧
      (∀ j : Fin 8, c2.getLsbD j.val = true ↔ ∃ f, hasFlag flags f = true ∧ s.cfg.stdFlagBitmap.pos f = ⟨.c2, j⟩) ∧
      exec (.encStd a flags p t) s =
        .next (answered s (.ok (.frame ⟨0xFF, a, c1, c2, p, t, fiveSum a c1 c2 p t⟩))))

/-- Under the default bitmap a Standard frame has `c1 = FLAGS[12] ++ 0b00 ++ FLAGS[11:7]` and `c2 = FLAGS[6:0] ++ 0b0`. The bitmap is
the spec's table from general knowledge (30_encoding.md R50; assumption log 4). -/
def Obligations.DefaultBitmapLaysOutTheFlags : Prop :=
  ∀ (a : Byte) (flags : Flags) (p t : Byte) (s : State), s.cfg.stdFlagBitmap = defaultBitmap →
    (∀ k, k < 5 → ¬ opposed flags k) → a ≠ 0 → p.toNat ≤ panMax s.cfg → t.toNat ≤ s.cfg.tiltSpeedMax.toNat →
    ∃ c1 c2 : Byte,
      (c1.getLsbD 7 = flags.getLsbD 12 ∧ c1.getLsbD 6 = false ∧ c1.getLsbD 5 = false ∧
        ∀ j, j < 5 → c1.getLsbD j = flags.getLsbD (7 + j)) ∧
      (c2.getLsbD 0 = false ∧ ∀ j, j < 7 → c2.getLsbD (j + 1) = flags.getLsbD j) ∧
      exec (.encStd a flags p t) s =
        .next (answered s (.ok (.frame ⟨0xFF, a, c1, c2, p, t, fiveSum a c1 c2 p t⟩)))

/-- A frame of ENC_STD has a legal address and legal speeds, and with distinct bitmap positions it shows each flag as requested and
never both flags of a group (42_shapes.md R98 b, c). -/
def Obligations.EncStdFrameShowsTheRequest : Prop :=
  ∀ (a : Byte) (flags : Flags) (p t : Byte) (s : State) (f : Frame),
    exec (.encStd a flags p t) s = .next (answered s (.ok (.frame f))) →
      (f.b1 = a ∧ 1 ≤ f.b1.toNat ∧ f.b4 = p ∧ f.b4.toNat ≤ panMax s.cfg ∧ f.b5 = t ∧
        f.b5.toNat ≤ s.cfg.tiltSpeedMax.toNat) ∧
      (s.cfg.stdFlagBitmap.distinct = true →
        (∀ g : Flag, frameBit f (s.cfg.stdFlagBitmap.pos g) = hasFlag flags g) ∧
        (∀ (k : Nat) (g h : Flag), k < 5 → flagBit g = 2 * k + 1 → flagBit h = 2 * k →
          ¬ (frameBit f (s.cfg.stdFlagBitmap.pos g) = true ∧ frameBit f (s.cfg.stdFlagBitmap.pos h) = true)))

/-- With distinct bitmap positions, two requests ENC_STD encodes to frames with the same command and data bytes have the same flags
and speeds (42_shapes.md R98 e). -/
def Obligations.EncStdIsInjective : Prop :=
  ∀ (a a' : Byte) (flags flags' : Flags) (p t p' t' : Byte) (s s' : State) (f f' : Frame),
    s.cfg.stdFlagBitmap.distinct = true → s'.cfg.stdFlagBitmap = s.cfg.stdFlagBitmap →
    exec (.encStd a flags p t) s = .next (answered s (.ok (.frame f))) →
    exec (.encStd a' flags' p' t') s' = .next (answered s' (.ok (.frame f'))) →
    f.b2 = f'.b2 → f.b3 = f'.b3 → f.b4 = f'.b4 → f.b5 = f'.b5 → flags = flags' ∧ p = p' ∧ t = t'

/-- What ENC_EXT answers to every request: the address, then the odd-opcode check when the configuration asks for it, then the frame
with the payload split big-endian (42_shapes.md R99). -/
def Obligations.EncExtAnswersEveryRequest : Prop :=
  (∀ (op : Byte) (sub : Option Byte) (v : Half) (s : State),
    exec (.encExt 0 op sub v) s = .next (answered s (.error (.outOfRange .address 0 1 255)))) ∧
  (∀ (a op : Byte) (sub : Option Byte) (v : Half) (s : State), a ≠ 0 → s.cfg.extOpcodeOddCheck = true → op.toNat % 2 = 0 →
    exec (.encExt a op sub v) s = .next (answered s (.error (.evenOpcode op)))) ∧
  (∀ (a op c1 d1 d2 : Byte) (sub : Option Byte) (v : Half) (s : State), a ≠ 0 →
    s.cfg.extOpcodeOddCheck = false ∨ op.toNat % 2 = 1 →
    sub = some c1 ∨ (sub = none ∧ c1 = 0x00) → d1.toNat = v.toNat / 256 → d2.toNat = v.toNat % 256 →
    exec (.encExt a op sub v) s =
      .next (answered s (.ok (.frame ⟨0xFF, a, c1, op, d1, d2, fiveSum a c1 op d1 d2⟩))))

/-- For a fixed address ENC_EXT is injective on the sub-opcode (an absent one reading as zero), the opcode and the payload
(42_shapes.md R100 c). -/
def Obligations.EncExtIsInjective : Prop :=
  ∀ (a op op' : Byte) (sub sub' : Option Byte) (v v' : Half) (s s' : State) (f : Frame),
    exec (.encExt a op sub v) s = .next (answered s (.ok (.frame f))) →
    exec (.encExt a op' sub' v') s' = .next (answered s' (.ok (.frame f))) →
    op = op' ∧ sub.getD 0 = sub'.getD 0 ∧ v = v'

/-- Under the default bitmap and with the odd-opcode check on, bit 0 of `c2` tells an Extended frame from a Standard one
(30_encoding.md R55). -/
def Obligations.LowBitOfCommand2TellsTheShape : Prop :=
  (∀ (a : Byte) (flags : Flags) (p t : Byte) (s : State) (f : Frame), s.cfg.stdFlagBitmap = defaultBitmap →
    exec (.encStd a flags p t) s = .next (answered s (.ok (.frame f))) → f.b3.toNat % 2 = 0) ∧
  (∀ (a op : Byte) (sub : Option Byte) (v : Half) (s : State) (f : Frame), s.cfg.extOpcodeOddCheck = true →
    exec (.encExt a op sub v) s = .next (answered s (.ok (.frame f))) → f.b3.toNat % 2 = 1)

/-- Whatever operation delivers a frame, ENC_RAW makes the same frame of its five field bytes, and DEC_CMD reads those fields back
(42_shapes.md R98 a, R100 a, R102). -/
def Obligations.EveryFrameIsARawFrameThatDecodes : Prop :=
  ∀ (i : Instr) (given : Option Byte) (s t : State) (f : Frame), exec i s = .next (answered s (.ok (.frame f))) →
    exec (.encRaw f.b1 f.b2 f.b3 f.b4 f.b5 given) t = .next (answered t (.ok (.frame f))) ∧
    exec (.decCmd (wire f)) t = .next (answered t (.ok (.cmd ⟨f.b1, f.b2, f.b3, f.b4, f.b5, f.b6⟩)))

/-! ## Requests and their decoding -/

/-- Decoding the request of a well-formed operation gives it back, with every operand at every value. -/
def Obligations.DecodeEncodeIsIdentity : Prop := ∀ i : Instr, i.wellFormed = true → decode (encode i) = .ok i

/-- Every request that decodes gives a well-formed operation that is written with the same selector and decodes to itself. -/
def Obligations.DecodedOperationIsWellFormed : Prop :=
  ∀ (r : Request) (i : Instr), decode r = .ok i →
    i.wellFormed = true ∧ (encode i).op = r.op ∧ decode (encode i) = .ok i

/-- An operation reads only the fields listed for its selector (10_state.md R26): requests that agree on those decode alike. -/
def Obligations.OperationReadsOnlyItsFields : Prop :=
  ∀ r q : Request, r.op = q.op →
    (r.op.toNat = 0 ∨ r.op.toNat = 1 ∨ r.op.toNat = 7 ∨ r.op.toNat = 8 → r.address = q.address) →
    (r.op.toNat = 0 ∨ r.op.toNat = 1 → r.c1 = q.c1 ∧ r.c2 = q.c2 ∧ r.d1 = q.d1 ∧ r.d2 = q.d2) →
    (r.op.toNat = 1 → r.checksumIn = q.checksumIn) →
    (r.op.toNat = 2 ∨ r.op.toNat = 3 ∨ r.op.toNat = 4 → r.input = q.input) →
    (r.op.toNat = 4 → r.expectedOpcode = q.expectedOpcode) →
    (r.op.toNat = 5 → r.field = q.field ∧ r.value = q.value) →
    (r.op.toNat = 6 ∨ r.op.toNat = 7 → r.flags = q.flags) →
    (r.op.toNat = 7 → r.panSpeed = q.panSpeed ∧ r.tiltSpeed = q.tiltSpeed) →
    (r.op.toNat = 8 → r.opcode = q.opcode ∧ r.subOpcode = q.subOpcode ∧ r.payload16 = q.payload16) →
    decode r = decode q

/-- The nine selectors of 30_encoding.md R64 select their operations, and every other selector is reserved. -/
def Obligations.SelectorsSelectTheirOperations : Prop :=
  ∀ r : Request,
    decode { r with op := 0b0000 } = .ok (.cksum r.address r.c1 r.c2 r.d1 r.d2) ∧
    decode { r with op := 0b0001 } = .ok (.encRaw r.address r.c1 r.c2 r.d1 r.d2 r.checksumIn) ∧
    decode { r with op := 0b0010 } = .ok (.decCmd r.input) ∧
    decode { r with op := 0b0011 } = .ok (.decGen r.input) ∧
    decode { r with op := 0b0100 } = .ok (.decExt r.input r.expectedOpcode) ∧
    decode { r with op := 0b0101 } = .ok (.valRange r.field r.value.toInt) ∧
    decode { r with op := 0b0110 } = .ok (.valExcl r.flags) ∧
    decode { r with op := 0b0111 } = .ok (.encStd r.address r.flags r.panSpeed r.tiltSpeed) ∧
    decode { r with op := 0b1000 } = .ok (.encExt r.address r.opcode r.subOpcode r.payload16) ∧
    (9 ≤ r.op.toNat → decode r = .error (.reservedSelector r.op))

/-- A request with a reserved selector is answered IllegalOperation with the selector, whatever its operands (30_encoding.md R65). When
it is the codec's turn, and what is left of the schedule, are the model's choice (assumption log 1, 2 and 11). -/
def Obligations.ReservedSelectorIsIllegalOperation : Prop :=
  ∀ (r : Request) (rest : List Move) (s : State), 9 ≤ r.op.toNat → s.hs = .busy r → codecTurn s rest →
    step s = .next { answered s (.error (.illegalOperation r.op)) with schedule := rest }

/-! ## The machine -/

/-- When the codec holds a request that decodes to an operation and it is its turn, the step is that operation's meaning, on the
state with the codec's turn taken from the schedule (when it is its turn is the model's choice, assumption log 1, 2 and 11). -/
def Obligations.StepRunsTheDecodedOperation : Prop :=
  ∀ (r : Request) (i : Instr) (rest : List Move) (s : State), s.hs = .busy r → decode r = .ok i → codecTurn s rest →
    step s = exec i { s with schedule := rest }

/-- While IDLE the codec accepts the submitted request and holds it (10_state.md R14); while BUSY a submitted request is not accepted:
the held one is answered first and the submit is still to come (70_reset_and_hazards.md R125; the model's choice, assumption log
2, and the output cleared at the acceptance is assumption log 5). -/
def Obligations.RequestAcceptedOnlyWhileIdle : Prop :=
  (∀ (req : Request) (rest : List Move) (s : State), s.hs = .idle → s.schedule = .submit req :: rest →
    step s = .next { s with hs := .busy req, response := none, schedule := rest }) ∧
  (∀ (held req : Request) (rest : List Move) (s : State), s.hs = .busy held → s.schedule = .submit req :: rest →
    ∃ r : Response, step s = .next (answered s r))

/-- Reset goes to IDLE, delivers nothing for a held request and leaves the configuration as it is (70_reset_and_hazards.md R121,
R122). -/
def Obligations.ResetDropsTheHeldRequest : Prop :=
  ∀ (rest : List Move) (s : State), s.schedule = .reset :: rest →
    step s = .next { s with hs := .idle, response := none, schedule := rest }

/-- The machine after reset: IDLE, no response pending, and the parameters that have a value at the spec's value
(70_reset_and_hazards.md R123). The bitmap's value is the spec's table from general knowledge (assumption log 4). -/
def Obligations.ResetStateIsAsStated : Prop :=
  State.reset.hs = .idle ∧ State.reset.response = none ∧ State.reset.received = [] ∧
    State.reset.cfg.tiltSpeedMax = 63 ∧ State.reset.cfg.presetIdMin = .min1 ∧
    State.reset.cfg.extOpcodeOddCheck = true ∧ State.reset.cfg.stdFlagBitmap = defaultBitmap ∧
    State.reset.cfg.gotoPresetOpcode = 0x05

/-- No step changes the configuration (10_state.md R18). -/
def Obligations.ConfigurationNeverChanges : Prop := ∀ s t : State, step s = .next t → t.cfg = s.cfg

/-- Every step answers a next state: the machine neither faults nor refuses (40_codec.md R87, 60_exceptions.md R108;
assumption log 12 and 13). -/
def Obligations.EveryStepAnswersNext : Prop := ∀ s : State, ∃ t : State, step s = .next t

/-- Every operation, in every state, answers exactly one response and changes nothing else (60_exceptions.md R108, R113). -/
def Obligations.EveryOperationAnswersOnce : Prop := ∀ (i : Instr) (s : State), ∃ r : Response, exec i s = .next (answered s r)

/-- A held request stays held until its one response is delivered or a reset drops it without a response (10_state.md R14,
70_reset_and_hazards.md R121; the output's clearing is assumption log 5). -/
def Obligations.BusyEndsByResponseOrReset : Prop :=
  ∀ (req : Request) (s t : State), s.hs = .busy req → step s = .next t →
    (t.hs = .busy req ∧ t.received = s.received ∧ t.response = s.response) ∨
    (t.hs = .idle ∧ t.received = s.received ++ [respond s.cfg req] ∧ t.response = some (respond s.cfg req)) ∨
    (t.hs = .idle ∧ t.received = s.received ∧ t.response = none ∧ ∃ rest, s.schedule = .reset :: rest)

/-- From every BUSY state the codec returns to IDLE after finitely many steps (70_reset_and_hazards.md R130; the model's
form of that fairness is assumption log 11, and a submit that stands next waits by assumption log 2). -/
def Obligations.BusyCodecReturnsToIdle : Prop :=
  ∀ (req : Request) (s : State), s.hs = .busy req →
    ∃ (n : Nat) (t : State), Host.Core.run Sys2Proof.core n s = .next t ∧ t.hs = .idle

/-- The response to a request depends only on the request and the configuration, never on what went before (10_state.md R14). That
both steps answer is the model's choice of when it is the codec's turn (assumption log 1, 2 and 11); that the output shows the
response and the host's list ends with it is assumption log 5 and 6. -/
def Obligations.ResponseIgnoresHistory : Prop :=
  ∀ (req : Request) (rest rest' : List Move) (s s' : State), s.hs = .busy req → s'.hs = .busy req → s.cfg = s'.cfg →
    codecTurn s rest → codecTurn s' rest' →
    ∃ (r : Response) (t t' : State), step s = .next t ∧ step s' = .next t' ∧ t.response = some r ∧ t'.response = some r ∧
      t.received = s.received ++ [r] ∧ t'.received = s'.received ++ [r]

/-- A program of requests is answered by the list of the single responses, in order, and leaves the codec IDLE with its configuration
unchanged (20_memory.md R38, 30_encoding.md R62). The moves and the two steps for each request are the model's choice: the schedule is
assumption log 1, the submits that wait while BUSY assumption log 2, the answer in one step assumption log 11, the list of received
responses assumption log 6. -/
def Obligations.ProgramIsAnsweredRequestByRequest : Prop :=
  ∀ (reqs : List Request) (s : State), s.hs = .idle → s.schedule = reqs.map Move.submit →
    ∃ t : State, Host.Core.run Sys2Proof.core (2 * reqs.length) s = .next t ∧ t.hs = .idle ∧ t.cfg = s.cfg ∧
      t.schedule = [] ∧ t.received = s.received ++ reqs.map (respond s.cfg)

/-- The invariant of the machine holds at reset (70_reset_and_hazards.md R123). Its clauses about the output and the host's list are
the model's choice (assumption log 5 and 6), a legal configuration is assumption log 16, and the reset configuration is assumption log
3 and 4. -/
def Obligations.InvariantHoldsAtReset : Prop := State.reset.Inv

/-- Every step keeps the invariant: a legal configuration, no response pending while a request is held, the output being the response
received last, and every delivered response sound: its frame or record has the right checksum, its error shows its cause. The clause
that no response is pending while a request is held is the model's choice (DESIGN CHOICE, assumption log 5), and so is the clause that
the output is the response received last (DESIGN CHOICE, assumption log 5 and 6); the host's list is assumption log 6, and what a legal
configuration is, assumption log 16 (DEDUCED). -/
def Obligations.StepKeepsTheInvariant : Prop := ∀ s t : State, s.Inv → step s = .next t → t.Inv

/-- The status code of each response (60_exceptions.md R103); 0xA to 0xF are never produced. -/
def Obligations.StatusCodesAreAsListed : Prop :=
  (∀ r : Response, (responseStatus r).toNat ≤ 9 ∧ ((responseStatus r).toNat = 0 ↔ ∃ x, r = .ok x)) ∧
  (∀ a b : Nat, responseStatus (.error (.badLength a b)) = 0x1) ∧
  (∀ b : Byte, responseStatus (.error (.badSync b)) = 0x2) ∧
  (∀ b c : Byte, responseStatus (.error (.checksumMismatch b c)) = 0x3) ∧
  (∀ b c : Byte, responseStatus (.error (.unexpectedOpcode b c)) = 0x4) ∧
  (∀ (f : FieldId) (v : Int) (lo hi : Nat), responseStatus (.error (.outOfRange f v lo hi)) = 0x5) ∧
  (∀ m : GroupMask, responseStatus (.error (.conflictingFlags m)) = 0x6) ∧
  (∀ b : Byte, responseStatus (.error (.evenOpcode b)) = 0x7) ∧
  (∀ op : Selector, responseStatus (.error (.illegalOperation op)) = 0x8) ∧
  (∀ f : FieldBits, responseStatus (.error (.illegalField f)) = 0x9)

/-- The source's class of each error (60_exceptions.md R105). -/
def Obligations.ErrorsHaveTheirSourceClass : Prop :=
  (∀ a b : Nat, errorClass (.badLength a b) = .frameOrReplyError) ∧
  (∀ b : Byte, errorClass (.badSync b) = .frameOrReplyError) ∧
  (∀ b c : Byte, errorClass (.checksumMismatch b c) = .checksumError) ∧
  (∀ b c : Byte, errorClass (.unexpectedOpcode b c) = .protocolError) ∧
  (∀ (f : FieldId) (v : Int) (lo hi : Nat), errorClass (.outOfRange f v lo hi) = .validationError) ∧
  (∀ m : GroupMask, errorClass (.conflictingFlags m) = .validationError) ∧
  (∀ b : Byte, errorClass (.evenOpcode b) = .validationError) ∧
  (∀ op : Selector, errorClass (.illegalOperation op) = .malformedRequest) ∧
  (∀ f : FieldBits, errorClass (.illegalField f) = .malformedRequest)

/-! ## Pseudo-operations -/

/-- The motion and lens pseudo-operations and QUERY_PAN_POS expand to one request each (30_encoding.md R71, R72, R73, R76). That PAN_TILT
does so for every flag vector is the model's reading of R72 (DEDUCED, assumption log 17). -/
def Obligations.PseudoOperationsExpandAsListed : Prop :=
  ∀ (c : Config) (a v p t : Byte) (flags : Flags),
    expand c (.panLeft a v) = [.encStd a 0x0002 v 0] ∧ expand c (.panRight a v) = [.encStd a 0x0001 v 0] ∧
    expand c (.tiltUp a v) = [.encStd a 0x0004 0 v] ∧ expand c (.tiltDown a v) = [.encStd a 0x0008 0 v] ∧
    expand c (.panTilt a flags p t) = [.encStd a flags p t] ∧
    expand c (.zoomTele a) = [.encStd a 0x0010 0 0] ∧ expand c (.zoomWide a) = [.encStd a 0x0020 0 0] ∧
    expand c (.focusFar a) = [.encStd a 0x0040 0 0] ∧ expand c (.focusNear a) = [.encStd a 0x0080 0 0] ∧
    expand c (.irisOpen a) = [.encStd a 0x0100 0 0] ∧ expand c (.irisClose a) = [.encStd a 0x0200 0 0] ∧
    expand c (.queryPanPos a) = [.encExt a 0x51 (some 0x00) 0x0000]

/-- STOP delivers the frame `FF a 00 00 00 00 a`, whatever the bitmap (30_encoding.md R70; that a camera stops on it is general
knowledge). That two steps with no move left lead to IDLE is the model's choice (assumption log 1 and 11). ENC_STD's answer for
address 0 is in EncStdAnswersEveryRequest. -/
def Obligations.StopDeliversTheZeroFrame : Prop :=
  ∀ (a : Byte) (s : State), a ≠ 0 → s.hs = .idle → s.schedule = pseudoMoves s.cfg (.stop a) →
    ∃ t : State, Host.Core.run Sys2Proof.core 2 s = .next t ∧ t.hs = .idle ∧
      t.received = s.received ++ [.ok (.frame ⟨0xFF, a, 0x00, 0x00, 0x00, 0x00, a⟩)]

/-- A sequence of operations with stop on the first error delivers the responses up to and with the first error and then issues no
more (30_encoding.md R69). The run is the model's choice: the moves are assumption log 1, the submits that wait while BUSY assumption
log 2, one step for each acceptance and each answer assumption log 11, the steps that wait in IDLE after an error assumption log 12,
and the look at the response output before the next submit assumption log 5 and 14. -/
def Obligations.SequenceStopsAtTheFirstError : Prop :=
  ∀ (instrs : List Instr) (s : State), (∀ i ∈ instrs, i.wellFormed = true) → s.hs = .idle →
    s.schedule = sequenceMoves instrs →
    ∃ t : State, Host.Core.run Sys2Proof.core (2 * instrs.length) s = .next t ∧ t.hs = .idle ∧ t.cfg = s.cfg ∧
      t.schedule = [] ∧ t.received = s.received ++ upToFirstError (instrs.map (instrResponse s.cfg))

/-- GOTO_PRESET validates the id first and sends no frame for an id out of range; for an id in range it delivers the Extended frame
with the configured opcode, sub-opcode 0 and the id as payload, or the encoder's error; the opcode's value in the spec is 0x05
(30_encoding.md R69 for the stop, R74 for the two requests, 41_validator.md R89 and R90 for the range, 42_shapes.md R99 for the frame).
The runs of four steps are the model's choice: the moves are assumption log 1, the submits that wait assumption log 2, the answers
assumption log 11, the waiting in IDLE assumption log 12, the submit after an OK response assumption log 5 and 14; the signed id is
assumption log 10. -/
def Obligations.GotoPresetValidatesThenEncodes : Prop :=
  (∀ (a : Byte) (id : Int) (s : State), (Pseudo.gotoPreset a id).wellFormed = true → s.hs = .idle →
    s.schedule = pseudoMoves s.cfg (.gotoPreset a id) → id < (presetMin s.cfg : Int) ∨ 255 < id →
    ∃ t : State, Host.Core.run Sys2Proof.core 4 s = .next t ∧ t.hs = .idle ∧
      t.received = s.received ++ [.error (.outOfRange .presetId id (presetMin s.cfg) 255)]) ∧
  (∀ (a n : Byte) (s : State), a ≠ 0 → presetMin s.cfg ≤ n.toNat → s.cfg.gotoPresetOpcode.toNat % 2 = 1 → s.hs = .idle →
    s.schedule = pseudoMoves s.cfg (.gotoPreset a (n.toNat : Int)) →
    ∃ t : State, Host.Core.run Sys2Proof.core 4 s = .next t ∧ t.hs = .idle ∧
      t.received = s.received ++ [.ok .statusOnly,
        .ok (.frame ⟨0xFF, a, 0x00, s.cfg.gotoPresetOpcode, 0x00, n,
          fiveSum a 0x00 s.cfg.gotoPresetOpcode 0x00 n⟩)]) ∧
  (∀ (n : Byte) (s : State), presetMin s.cfg ≤ n.toNat → s.hs = .idle →
    s.schedule = pseudoMoves s.cfg (.gotoPreset 0 (n.toNat : Int)) →
    ∃ t : State, Host.Core.run Sys2Proof.core 4 s = .next t ∧ t.hs = .idle ∧
      t.received = s.received ++ [.ok .statusOnly, .error (.outOfRange .address 0 1 255)]) ∧
  (∀ (p : PanSpeedMax) (verify : Bool), (configWith p verify).gotoPresetOpcode = 0x05)

/-- FLIP_180 is GOTO_PRESET of preset 0x21 and ZERO_PAN of preset 0x22 (30_encoding.md R75). -/
def Obligations.FlipAndZeroPanAreGotoPreset : Prop :=
  ∀ (c : Config) (a : Byte), pseudoMoves c (.flip180 a) = pseudoMoves c (.gotoPreset a 0x21) ∧
    pseudoMoves c (.zeroPan a) = pseudoMoves c (.gotoPreset a 0x22)

/-- Whatever a line of the notation asks for, every operation it gives is well-formed, and so is every operation a well-formed
pseudo-operation expands to (30_encoding.md R61, R69; assumption log 9, 10 and 15). -/
def Obligations.WrittenRequestsAreWellFormed : Prop :=
  (∀ (c : Config) (p : Pseudo), p.wellFormed = true → ∀ i ∈ expand c p, i.wellFormed = true) ∧
  (∀ (c : Config) (line : String) (instrs : List Instr), parseLine c line = .ok instrs →
    ∀ i ∈ instrs, i.wellFormed = true)
end

