-- ==== Sys2Proof/Laws/State.lean ====
section
/-! SUPPORT. One lemma per field for each update of the state, so that no later proof unfolds a record update. -/

namespace Sys2Proof.Machine.State

@[simp] theorem accept_cfg (s : State) (r : Request) : (s.accept r).cfg = s.cfg := rfl
@[simp] theorem accept_hs (s : State) (r : Request) : (s.accept r).hs = .busy r := rfl
@[simp] theorem accept_response (s : State) (r : Request) : (s.accept r).response = none := rfl
@[simp] theorem accept_received (s : State) (r : Request) : (s.accept r).received = s.received := rfl
@[simp] theorem accept_schedule (s : State) (r : Request) : (s.accept r).schedule = s.schedule := rfl

@[simp] theorem deliver_cfg (s : State) (r : Response) : (s.deliver r).cfg = s.cfg := rfl
@[simp] theorem deliver_hs (s : State) (r : Response) : (s.deliver r).hs = .idle := rfl
@[simp] theorem deliver_response (s : State) (r : Response) : (s.deliver r).response = some r := rfl
@[simp] theorem deliver_received (s : State) (r : Response) : (s.deliver r).received = s.received ++ [r] := rfl
@[simp] theorem deliver_schedule (s : State) (r : Response) : (s.deliver r).schedule = s.schedule := rfl

@[simp] theorem resetBlock_cfg (s : State) : s.resetBlock.cfg = s.cfg := rfl
@[simp] theorem resetBlock_hs (s : State) : s.resetBlock.hs = .idle := rfl
@[simp] theorem resetBlock_response (s : State) : s.resetBlock.response = none := rfl
@[simp] theorem resetBlock_received (s : State) : s.resetBlock.received = s.received := rfl
@[simp] theorem resetBlock_schedule (s : State) : s.resetBlock.schedule = s.schedule := rfl

@[simp] theorem placeRequest_cfg (s : State) (r : Request) : (s.placeRequest r).cfg = s.cfg := rfl
@[simp] theorem placeRequest_hs (s : State) (r : Request) : (s.placeRequest r).hs = .busy r := rfl
@[simp] theorem placeRequest_response (s : State) (r : Request) : (s.placeRequest r).response = none := rfl
@[simp] theorem placeRequest_received (s : State) (r : Request) : (s.placeRequest r).received = s.received := rfl
@[simp] theorem placeRequest_schedule (s : State) (r : Request) :
    (s.placeRequest r).schedule = .codec :: s.schedule := rfl

/-- What the delivery of a response depends on: the response, and of the state everything but its handshake and its output. -/
theorem deliver_congr {s t : State} (r : Response) (hc : s.cfg = t.cfg) (hr : s.received = t.received)
    (hm : s.schedule = t.schedule) : s.deliver r = t.deliver r := by
  simp only [deliver, hc, hr, hm]

end Sys2Proof.Machine.State
end

