-- ==== Sys2Proof/Laws/Ops.lean ====
section
/-! SUPPORT. What the shared operations do, once: completing, raising and answering; the checksum; byte order; and that an operation's
meaning is the delivery of its pure response. -/

namespace Sys2Proof.Machine

@[simp] theorem complete_eq (r : Result) (s : State) : complete r s = .next (s.deliver (.ok r)) := rfl

@[simp] theorem raise_eq (e : Error) (s : State) : raise e s = .next (s.deliver (.error e)) := rfl

/-- Answering always delivers the response, be it OK or an error. -/
@[simp] theorem answer_eq (r : Response) (s : State) : answer r s = .next (s.deliver r) := by
  cases r <;> rfl

/-- Every meaning delivers the operation's pure response. -/
theorem exec_eq_deliver (i : Instr) (s : State) : exec i s = .next (s.deliver (instrResponse s.cfg i)) := by
  cases i <;>
    simp only [exec, execCksum, execEncRaw, execDecCmd, execDecGen, execDecExt, execValRange, execValExcl, execEncStd,
      execEncExt, answer_eq, instrResponse]

/-- Serving a request delivers its pure response, a reserved selector included. -/
theorem serve_eq_deliver (req : Request) (s : State) : serve req s = .next (s.deliver (respond s.cfg req)) := by
  unfold serve respond
  cases decode req with
  | ok i => exact exec_eq_deliver i s
  | error e => cases e with
    | reservedSelector op => rfl

/-- The checksum as a number. -/
theorem sum8_toNat (bs : List Byte) : (sum8 bs).toNat = (bs.map BitVec.toNat).sum % 256 := by
  simp [sum8, BitVec.toNat_ofNat]

/-- Two checksums agree exactly when the sums agree modulo 256. -/
theorem sum8_eq_iff (as bs : List Byte) :
    sum8 as = sum8 bs ↔ (as.map BitVec.toNat).sum % 256 = (bs.map BitVec.toNat).sum % 256 := by
  rw [← BitVec.toNat_inj, sum8_toNat, sum8_toNat]

/-- The checksum does not depend on the order of the bytes. -/
theorem sum8_perm {as bs : List Byte} (h : as.Perm bs) : sum8 as = sum8 bs := by
  rw [sum8_eq_iff, (h.map BitVec.toNat).sum_eq]

/-- A joined value is the high byte times 256 plus the low byte. -/
theorem joinBytes_toNat (hi lo : Byte) : (joinBytes hi lo).toNat = hi.toNat * 256 + lo.toNat := by
  unfold joinBytes
  rw [BitVec.toNat_append, Nat.shiftLeft_eq, Nat.mul_comm, ← Nat.two_pow_add_eq_or_of_lt lo.isLt]

theorem highByte_toNat (v : Half) : (highByte v).toNat = v.toNat / 256 := by
  unfold highByte
  rw [BitVec.extractLsb'_toNat, Nat.shiftRight_eq_div_pow]
  have := v.isLt
  omega

theorem lowByte_toNat (v : Half) : (lowByte v).toNat = v.toNat % 256 := by
  unfold lowByte
  rw [BitVec.extractLsb'_toNat]
  simp

/-- The two bytes of a 16-bit value join back to it. -/
@[simp] theorem joinBytes_high_low (v : Half) : joinBytes (highByte v) (lowByte v) = v := by
  rw [← BitVec.toNat_inj, joinBytes_toNat, highByte_toNat, lowByte_toNat]
  omega

/-- A command frame starts with the sync byte and ends with the sum of the five bytes between. -/
theorem commandFrame_sum (address c1 c2 d1 d2 : Byte) :
    (commandFrame address c1 c2 d1 d2).b6 = sum8 [address, c1, c2, d1, d2] := rfl

end Sys2Proof.Machine
end

