-- ==== Sys2Proof/Laws/Operands.lean ====
section
/-! SUPPORT. What the operand forms and the flag computations do: reading a frame or a reply, the range check, the conflict mask and the
command bytes of the Standard shape. -/

namespace Sys2Proof.Machine

/-- A buffer of another length than seven is no frame. -/
theorem readFrame_badLength {input : List Byte} (h : input.length ≠ 7) :
    readFrame input = .error (.badLength 7 input.length) := by
  unfold readFrame
  split
  · simp at h
  · rfl

/-- Everything reading a frame can give: a length error, a sync error, a checksum error, or the frame of its seven bytes. -/
theorem readFrame_cases (input : List Byte) :
    (input.length ≠ 7 ∧ readFrame input = .error (.badLength 7 input.length)) ∨
    (∃ b0 b1 b2 b3 b4 b5 b6, input = [b0, b1, b2, b3, b4, b5, b6] ∧ b0 ≠ syncByte ∧
      readFrame input = .error (.badSync b0)) ∨
    (∃ b1 b2 b3 b4 b5 b6, input = [syncByte, b1, b2, b3, b4, b5, b6] ∧ b6 ≠ sum8 [b1, b2, b3, b4, b5] ∧
      readFrame input = .error (.checksumMismatch b6 (sum8 [b1, b2, b3, b4, b5]))) ∨
    (∃ b1 b2 b3 b4 b5, input = [syncByte, b1, b2, b3, b4, b5, sum8 [b1, b2, b3, b4, b5]] ∧
      readFrame input = .ok (commandFrame b1 b2 b3 b4 b5)) := by
  unfold readFrame
  split
  · rename_i b0 b1 b2 b3 b4 b5 b6
    by_cases h0 : b0 = syncByte
    · subst h0
      by_cases h6 : b6 = sum8 [b1, b2, b3, b4, b5]
      · subst h6
        exact .inr (.inr (.inr ⟨b1, b2, b3, b4, b5, rfl, by simp [commandFrame]⟩))
      · exact .inr (.inr (.inl ⟨b1, b2, b3, b4, b5, b6, rfl, h6, by simp [h6]⟩))
    · exact .inr (.inl ⟨b0, b1, b2, b3, b4, b5, b6, rfl, h0, by simp [h0]⟩)
  · rename_i h
    refine .inl ⟨?_, rfl⟩
    intro hl
    match input, hl with
    | [b0, b1, b2, b3, b4, b5, b6], _ => exact h b0 b1 b2 b3 b4 b5 b6 rfl

/-- A frame the encoders build is read back whole. -/
@[simp] theorem readFrame_commandFrame (address c1 c2 d1 d2 : Byte) :
    readFrame (commandFrame address c1 c2 d1 d2).toList = .ok (commandFrame address c1 c2 d1 d2) := by
  simp [readFrame, commandFrame, Frame.toList]

/-- Everything reading a general reply can give. -/
theorem readGeneral_cases (cfg : Config) (input : List Byte) :
    (input.length ≠ 4 ∧ readGeneral cfg input = .error (.badLength 4 input.length)) ∨
    (∃ b0 b1 b2 b3, input = [b0, b1, b2, b3] ∧ b0 ≠ syncByte ∧ readGeneral cfg input = .error (.badSync b0)) ∨
    (∃ b1 b2 b3, input = [syncByte, b1, b2, b3] ∧ cfg.verifyGeneralChecksum = true ∧ b3 ≠ sum8 [b1, b2] ∧
      readGeneral cfg input = .error (.checksumMismatch b3 (sum8 [b1, b2]))) ∨
    (∃ b1 b2 b3, input = [syncByte, b1, b2, b3] ∧ (cfg.verifyGeneralChecksum = true → b3 = sum8 [b1, b2]) ∧
      readGeneral cfg input = .ok ⟨b1, b2, b3⟩) := by
  unfold readGeneral
  split
  · rename_i b0 b1 b2 b3
    by_cases h0 : b0 = syncByte
    · subst h0
      by_cases hc : cfg.verifyGeneralChecksum = true ∧ b3 ≠ sum8 [b1, b2]
      · exact .inr (.inr (.inl ⟨b1, b2, b3, rfl, hc.1, hc.2, by simp [hc]⟩))
      · refine .inr (.inr (.inr ⟨b1, b2, b3, rfl, ?_, by simp [hc]⟩))
        intro hv
        by_contra hb
        exact hc ⟨hv, hb⟩
    · exact .inr (.inl ⟨b0, b1, b2, b3, rfl, h0, by simp [h0]⟩)
  · rename_i h
    refine .inl ⟨?_, rfl⟩
    intro hl
    match input, hl with
    | [b0, b1, b2, b3], _ => exact h b0 b1 b2 b3 rfl

/-- The range check passes exactly when the value lies between the bounds, both included. -/
theorem checkRange_none_iff (cfg : Config) (f : FieldId) (v : Int) :
    checkRange cfg f v = none ↔ (rangeOf cfg f).1 ≤ v ∧ v ≤ (rangeOf cfg f).2 := by
  unfold checkRange
  split <;> simp <;> omega

/-- When the range check raises an error, it is OutOfRange with the bounds in force. -/
theorem checkRange_some {cfg : Config} {f : FieldId} {v : Int} {e : Error} (h : checkRange cfg f v = some e) :
    e = .outOfRange f v (rangeOf cfg f).1 (rangeOf cfg f).2 ∧ (v < (rangeOf cfg f).1 ∨ (rangeOf cfg f).2 < v) := by
  unfold checkRange at h
  split at h
  · rename_i hv
    exact ⟨(Option.some.inj h).symm, hv⟩
  · cases h

/-- The field a 5-bit number names has that number. -/
theorem fieldOfBits_some {field : FieldBits} {f : FieldId} (h : fieldOfBits field = some f) :
    fieldNumber f = field.toNat := by
  unfold fieldOfBits at h
  simpa using List.find?_some h

/-- The numbers 18 to 31 name no field. -/
theorem fieldOfBits_none_iff (field : FieldBits) : fieldOfBits field = none ↔ 18 ≤ field.toNat := by
  revert field
  decide

/-- Every field is named by its number. -/
theorem fieldOfBits_fieldNumber (f : FieldId) : fieldOfBits (BitVec.ofNat 5 (fieldNumber f)) = some f := by
  cases f <;> decide

/-- Bit `k` of the conflict mask is the conflict of group `k`. -/
theorem conflictMask_getLsbD (flags : Flags) (k : Nat) (hk : k < 5) :
    (conflictMask flags).getLsbD k = groupConflict flags k := by
  have : k = 0 ∨ k = 1 ∨ k = 2 ∨ k = 3 ∨ k = 4 := by omega
  unfold conflictMask groupBit
  rcases this with rfl | rfl | rfl | rfl | rfl <;>
    cases groupConflict flags 0 <;> cases groupConflict flags 1 <;> cases groupConflict flags 2 <;>
      cases groupConflict flags 3 <;> cases groupConflict flags 4 <;> rfl

/-- The mask is zero exactly when no group is in conflict. -/
theorem conflictMask_eq_zero_iff (flags : Flags) : conflictMask flags = 0 ↔ ∀ k, k < 5 → groupConflict flags k = false := by
  constructor
  · intro h k hk
    rw [← conflictMask_getLsbD flags k hk, h]
    simp
  · intro h
    ext k hk
    rw [← BitVec.getLsbD_eq_getElem hk, conflictMask_getLsbD flags k hk, h k hk]
    simp

theorem checkExclusive_none_iff (flags : Flags) : checkExclusive flags = none ↔ conflictMask flags = 0 := by
  unfold checkExclusive
  split <;> simp_all

/-- A fold that ORs in the positions of some flags has a bit set exactly when it had it before or one of those positions is it. -/
theorem foldl_or_getLsbD (fs : List Flag) (p : Flag → Bool) (bit : Flag → Fin 8) (acc : Byte) (j : Nat) (hj : j < 8) :
    (fs.foldl (fun acc f => if p f = true then acc ||| (1#8 <<< (bit f).val) else acc) acc).getLsbD j =
      (acc.getLsbD j || fs.any (fun f => p f && decide ((bit f).val = j))) := by
  induction fs generalizing acc with
  | nil => simp
  | cons f fs ih =>
    rw [List.foldl_cons, ih]
    cases hp : p f
    · simp [hp]
    · have hb : (1#8 <<< (bit f).val).getLsbD j = decide ((bit f).val = j) := by
        have := (bit f).isLt
        rw [BitVec.getLsbD_shiftLeft, BitVec.getLsbD_one]
        by_cases h : (bit f).val = j
        · simp [h, hj]
        · simp [h, hj]
          omega
      simp [hp, hb, Bool.or_assoc]

/-- Bit `j` of a Standard command byte is set exactly when some set flag has that position. -/
theorem flagByte_getLsbD (m : FlagBitmap) (flags : Flags) (which : CmdByte) (j : Fin 8) :
    (flagByte m flags which).getLsbD j.val = Flag.all.any (fun f => hasFlag flags f && decide (m.pos f = ⟨which, j⟩)) := by
  have h := foldl_or_getLsbD Flag.all (fun f => hasFlag flags f && decide ((m.pos f).byte = which))
    (fun f => (m.pos f).bit) 0 j.val j.isLt
  have he : flagByte m flags which = Flag.all.foldl
      (fun acc f => if (hasFlag flags f && decide ((m.pos f).byte = which)) = true then acc ||| (1#8 <<< (m.pos f).bit.val)
        else acc) 0 := by
    unfold flagByte
    congr 1
    funext acc f
    simp
  rw [he, h]
  simp only [BitVec.ofNat_eq_ofNat, BitVec.getLsbD_zero, Bool.false_or]
  congr 1
  funext f
  rw [Bool.and_assoc]
  congr 1
  generalize m.pos f = p
  obtain ⟨b, k⟩ := p
  simp [FlagPos.mk.injEq, Fin.ext_iff]

end Sys2Proof.Machine
end

