-- ==== Sys2Proof/Laws/PerInstr.lean ====
section
/-! SUPPORT. Facts about every operation as a request, one lemma per operation. -/

namespace Sys2Proof.Laws.EncodesSelector

/-- The request an operation is written as carries the operation's selector, one of the nine of R64. -/
def Statement (i : Instr) : Prop := (encode i).op = i.selector ∧ i.selector.toNat ≤ 8

theorem cksum (address c1 c2 d1 d2 : Byte) : Statement (.cksum address c1 c2 d1 d2) := ⟨rfl, by simp [Instr.selector]⟩
theorem encRaw (address c1 c2 d1 d2 : Byte) (checksumIn : Option Byte) :
    Statement (.encRaw address c1 c2 d1 d2 checksumIn) := ⟨rfl, by simp [Instr.selector]⟩
theorem decCmd (input : List Byte) : Statement (.decCmd input) := ⟨rfl, by simp [Instr.selector]⟩
theorem decGen (input : List Byte) : Statement (.decGen input) := ⟨rfl, by simp [Instr.selector]⟩
theorem decExt (input : List Byte) (expectedOpcode : Byte) : Statement (.decExt input expectedOpcode) := ⟨rfl, by simp [Instr.selector]⟩
theorem valRange (field : FieldBits) (value : Int) : Statement (.valRange field value) := ⟨rfl, by simp [Instr.selector]⟩
theorem valExcl (flags : Flags) : Statement (.valExcl flags) := ⟨rfl, by simp [Instr.selector]⟩
theorem encStd (address : Byte) (flags : Flags) (panSpeed tiltSpeed : Byte) :
    Statement (.encStd address flags panSpeed tiltSpeed) := ⟨rfl, by simp [Instr.selector]⟩
theorem encExt (address opcode : Byte) (subOpcode : Option Byte) (payload16 : Half) :
    Statement (.encExt address opcode subOpcode payload16) := ⟨rfl, by simp [Instr.selector]⟩

end Sys2Proof.Laws.EncodesSelector
end

