-- ==== Sys2Proof/Laws/Step.lean ====
section
/-! SUPPORT. Everything one step can do, said once, and the small facts about the host's moves. -/

namespace Sys2Proof.Machine

theorem step_idle {s : State} (h : s.hs = .idle) : step s = idleStep s := by
  unfold step
  split
  · rfl
  · rename_i hb
    rw [h] at hb
    cases hb

theorem step_busy {s : State} {req : Request} (h : s.hs = .busy req) : step s = busyStep req s := by
  unfold step
  split
  · rename_i hi
    rw [h] at hi
    cases hi
  · rename_i r hb
    rw [h] at hb
    cases hb
    rfl

/-- Everything a step can answer with a next state. -/
theorem step_cases {s t : State} (h : step s = .next t) :
    (∃ rest req, s.hs = .idle ∧ (s.schedule = .submit req :: rest ∨ (s.schedule = .submitIfOk req :: rest ∧ s.lastOk = true)) ∧
      t = State.accept { s with schedule := rest } req) ∨
    (∃ rest, s.schedule = .reset :: rest ∧ t = State.resetBlock { s with schedule := rest }) ∨
    (∃ req rest, s.hs = .busy req ∧ (s.schedule = .codec :: rest ∨ rest = s.schedule) ∧
      t = State.deliver { s with schedule := rest } (respond s.cfg req)) ∨
    (∃ rest, t = { s with schedule := rest }) := by
  unfold step at h
  cases hhs : s.hs with
  | idle =>
    simp only [hhs, idleStep] at h
    split at h
    · exact .inr (.inr (.inr ⟨s.schedule, by cases h; cases s; cases hhs; rfl⟩))
    · rename_i req rest hs
      exact .inl ⟨rest, req, rfl, .inl hs, (Host.Outcome.next.inj h).symm⟩
    · rename_i req rest hs
      split at h
      · rename_i hok
        exact .inl ⟨rest, req, rfl, .inr ⟨hs, hok⟩, (Host.Outcome.next.inj h).symm⟩
      · exact .inr (.inr (.inr ⟨rest, (Host.Outcome.next.inj h).symm⟩))
    · rename_i rest hs
      exact .inr (.inl ⟨rest, hs, (Host.Outcome.next.inj h).symm⟩)
    · rename_i rest hs
      exact .inr (.inr (.inr ⟨rest, (Host.Outcome.next.inj h).symm⟩))
    · rename_i rest hs
      exact .inr (.inr (.inr ⟨rest, (Host.Outcome.next.inj h).symm⟩))
  | busy req =>
    simp only [hhs, busyStep] at h
    split at h
    · exact .inr (.inr (.inl ⟨req, s.schedule, rfl, .inr rfl, by
        rw [serve_eq_deliver] at h; exact (Host.Outcome.next.inj h).symm⟩))
    · exact .inr (.inr (.inl ⟨req, s.schedule, rfl, .inr rfl, by
        rw [serve_eq_deliver] at h; exact (Host.Outcome.next.inj h).symm⟩))
    · exact .inr (.inr (.inl ⟨req, s.schedule, rfl, .inr rfl, by
        rw [serve_eq_deliver] at h; exact (Host.Outcome.next.inj h).symm⟩))
    · rename_i rest hs
      exact .inr (.inl ⟨rest, hs, (Host.Outcome.next.inj h).symm⟩)
    · rename_i rest hs
      exact .inr (.inr (.inl ⟨req, rest, rfl, .inl hs, by
        rw [serve_eq_deliver] at h; exact (Host.Outcome.next.inj h).symm⟩))
    · rename_i rest hs
      exact .inr (.inr (.inr ⟨rest, (Host.Outcome.next.inj h).symm⟩))

/-- A request placed for the codec is served by the next step, and the moves that were to come are untouched. -/
theorem step_placeRequest (s : State) (req : Request) :
    step (s.placeRequest req) = .next (s.deliver (respond s.cfg req)) := by
  show serve req { (s.placeRequest req) with schedule := s.schedule } = _
  rw [serve_eq_deliver]
  rfl

/-- A table word placed by `withFetchWord` is served by the next step. -/
theorem step_withFetchWord (s : State) (nbits w : Nat) :
    step (s.withFetchWord nbits w) = .next (s.deliver (respond s.cfg (tableRequest w))) :=
  step_placeRequest s _

/-- The unfolding of a run by one step. -/
theorem run_succ (k : Nat) (s : State) :
    Host.Core.run Sys2Proof.core (k + 1) s =
      (match step s with
        | .next s' => Host.Core.run Sys2Proof.core k s'
        | .fault r => .fault r
        | .refused r => .refused r) := by
  refine (Host.Core.run.eq_2 Sys2Proof.core s k).trans ?_
  have h : Sys2Proof.core.step s = step s := rfl
  rw [h]
  cases step s <;> rfl

theorem run_zero (s : State) : Host.Core.run Sys2Proof.core 0 s = .next s := Host.Core.run.eq_1 Sys2Proof.core s

/-- A run whose first step is known. -/
theorem run_of_step {k : Nat} {s t : State} (h : step s = .next t) :
    Host.Core.run Sys2Proof.core (k + 1) s = Host.Core.run Sys2Proof.core k t := by
  rw [run_succ, h]

/-- A run of `m + n` steps is a run of `m` steps followed by one of `n`. -/
theorem run_append {m n : Nat} {s t : State} (h : Host.Core.run Sys2Proof.core m s = .next t) :
    Host.Core.run Sys2Proof.core (m + n) s = Host.Core.run Sys2Proof.core n t := by
  induction m generalizing s with
  | zero =>
    rw [run_zero] at h
    cases h
    rw [Nat.zero_add]
  | succ m ih =>
    rw [run_succ] at h
    rw [Nat.add_right_comm, run_succ]
    cases hs : step s with
    | next u =>
      rw [hs] at h
      exact ih h
    | fault r =>
      rw [hs] at h
      cases h
    | refused r =>
      rw [hs] at h
      cases h

end Sys2Proof.Machine
end

