-- ==== Sys2Proof/Tests/Slice0.lean ====
section
/-! SUPPORT. The model's own tests. Every expected value stands in the spec: a vector of 95_test_vectors.md is named beside its test, or
the rule it is read from. The last part shows, for each statement with hypotheses, a state and operands that meet them. -/

namespace Sys2Proof.Tests

open Sys2Proof Sys2Proof.Machine Sys2Proof.Stated

/-- An idle block with the given OPEN parameters and the spec's other parameters. -/
def block (p : PanSpeedMax) (verify : Bool) : State := { State.reset with cfg := configWith p verify }

/-- The response a meaning delivers. -/
def responseOf (o : Host.Outcome State Fault Refusal) : Option Response :=
  match o with
  | .next s => s.response
  | .fault _ => none
  | .refused _ => none

/-- The end of a run: the handshake is idle, and what the host has received. -/
def received (o : Host.Outcome State Fault Refusal) : Option (Bool × List Response) :=
  match o with
  | .next s => some (decide (s.hs = .idle), s.received)
  | .fault _ => none
  | .refused _ => none

/-! ## Well-formedness -/

/-- A value above 2^31 - 1 is no 32-bit signed integer (R26). -/
theorem test_value_too_large_refused : (Instr.valRange 0 2147483648).wellFormed = false := by decide

/-- A value below -2^31 is no 32-bit signed integer (R26). -/
theorem test_value_too_small_refused : (Instr.valRange 0 (-2147483649)).wellFormed = false := by decide

/-- A preset id that VAL_RANGE could not carry is refused (R74). -/
theorem test_preset_id_too_large_refused : (Pseudo.gotoPreset 1 2147483648).wellFormed = false := by decide

/-- Two flags at one position are no legal bitmap (R24). -/
theorem test_shared_bitmap_position_refused :
    Config.legal { configWith .max63 false with stdFlagBitmap := { defaultBitmap with scan := ⟨.c1, 7⟩ } } = false := by
  decide

/-- An even GOTO_PRESET_OPCODE is not legal (R8). -/
theorem test_even_goto_opcode_refused : Config.legal { configWith .max63 false with gotoPresetOpcode := 4 } = false := by
  decide

/-- A tilt maximum of 64 is not legal (R8). -/
theorem test_tilt_64_refused : Config.legal { configWith .max63 false with tiltSpeedMax := 64 } = false := by decide

/-- The spec's configuration is legal for either value of each OPEN parameter. -/
theorem test_configs_legal : ∀ p v, (configWith p v).legal = true := by
  intro p v
  cases p <;> cases v <;> decide

/-! ## Decoding (the patterns of 30_encoding.md R64) -/

theorem test_decode_cksum : decode { op := 0b0000, address := 1, c2 := 5, d2 := 1 } = .ok (.cksum 1 0 5 0 1) := rfl
theorem test_decode_encRaw :
    decode { op := 0b0001, address := 1, c2 := 5, d2 := 1, checksumIn := some 0x99 } = .ok (.encRaw 1 0 5 0 1 (some 0x99)) := rfl
theorem test_decode_decCmd : decode { op := 0b0010, input := [0xFF, 1] } = .ok (.decCmd [0xFF, 1]) := rfl
theorem test_decode_decGen : decode { op := 0b0011, input := [0xFF, 1] } = .ok (.decGen [0xFF, 1]) := rfl
theorem test_decode_decExt :
    decode { op := 0b0100, input := [0xFF], expectedOpcode := 0x51 } = .ok (.decExt [0xFF] 0x51) := rfl
theorem test_decode_valRange : decode { op := 0b0101, field := 1, value := 0xFFFFFFFF } = .ok (.valRange 1 (-1)) := rfl
theorem test_decode_valExcl : decode { op := 0b0110, flags := 0x1C03 } = .ok (.valExcl 0x1C03) := rfl
theorem test_decode_encStd :
    decode { op := 0b0111, address := 2, flags := 6, panSpeed := 0x10, tiltSpeed := 8 } = .ok (.encStd 2 6 0x10 8) := rfl
theorem test_decode_encExt :
    decode { op := 0b1000, address := 1, opcode := 0x51, payload16 := 0 } = .ok (.encExt 1 0x51 none 0) := rfl

/-- V-SEL-1, V-SEL-2: 0x9 and 0xF are reserved. -/
theorem test_decode_reserved :
    decode { op := 0b1001 } = .error (.reservedSelector 9) ∧ decode { op := 0b1111, address := 7 } = .error (.reservedSelector 15) :=
  ⟨rfl, rfl⟩

/-- A table word's low four bits are its selector. -/
theorem test_table_words :
    decodeTableWord 8 8 = some (.encExt 0 0 none 0) ∧ decodeTableWord 8 3 = some (.decGen []) ∧ decodeTableWord 8 9 = none := by
  decide

/-- A table word placed for the next step is served by it, from reset. -/
theorem test_withFetchWord_serves :
    responseOf (step (State.reset.withFetchWord 8 2)) = some (.error (.badLength 7 0)) ∧
      responseOf (step (State.reset.withFetchWord 8 12)) = some (.error (.illegalOperation 12)) := by decide

/-! ## The operations -/

/-- V-CK-2. -/
theorem test_cksum_wraps :
    responseOf (exec (.cksum 0xFF 0xFF 0xFF 0xFF 0xFF) State.reset) = some (.ok (.checksum 0xFB)) := by decide

/-- V-CK-5. -/
theorem test_cksum_carry_lost :
    responseOf (exec (.cksum 0x80 0x80 0 0 0) State.reset) = some (.ok (.checksum 0x00)) := by decide

/-- V-RAW-1. -/
theorem test_encRaw_ignores_given_checksum :
    responseOf (exec (.encRaw 1 0 5 0 1 (some 0x99)) State.reset) = some (.ok (.frame ⟨0xFF, 1, 0, 5, 0, 1, 7⟩)) := by decide

/-- V-RAW-6. -/
theorem test_encRaw_validates_nothing :
    responseOf (exec (.encRaw 0x7B 0x9F 0xFE 0x3F 0x3F none) State.reset) =
      some (.ok (.frame ⟨0xFF, 0x7B, 0x9F, 0xFE, 0x3F, 0x3F, 0x96⟩)) := by decide

/-- V-DCMD-13. -/
theorem test_decCmd_accepts :
    responseOf (exec (.decCmd [0xFF, 2, 0, 0x0C, 0x10, 2, 0x20]) State.reset) = some (.ok (.cmd ⟨2, 0, 0x0C, 0x10, 2, 0x20⟩)) := by
  decide

/-- V-DCMD-4, V-DCMD-7: sync before checksum, length before sync. -/
theorem test_decCmd_priority :
    responseOf (exec (.decCmd [0xFE, 1, 0, 5, 0, 1, 8]) State.reset) = some (.error (.badSync 0xFE)) ∧
      responseOf (exec (.decCmd [0xFF, 0xFF, 0xFF, 0xFF, 0xFF, 0xFF, 0xFF, 0xFF]) State.reset) =
        some (.error (.badLength 7 8)) := by decide

/-- V-DGEN-2, both values of the toggle. -/
theorem test_decGen_toggle :
    responseOf (exec (.decGen [0xFF, 1, 0, 2]) (block .max63 true)) = some (.error (.checksumMismatch 2 1)) ∧
      responseOf (exec (.decGen [0xFF, 1, 0, 2]) (block .max63 false)) = some (.ok (.gen ⟨1, 0, 2⟩)) := by decide

/-- V-DGEN-8. -/
theorem test_decGen_refuses_seven_bytes :
    responseOf (exec (.decGen [0xFF, 1, 0, 0x52, 0, 0, 0x52]) State.reset) = some (.error (.badLength 4 7)) := by decide

/-- V-DEXT-1. -/
theorem test_decExt_accepts :
    responseOf (exec (.decExt [0xFF, 1, 0, 0x51, 0x12, 0x34, 0x98] 0x51) State.reset) =
      some (.ok (.ext ⟨1, 0, 0x51, 0x12, 0x34, 0x98, 0x1234⟩)) := by decide

/-- V-DEXT-4, V-DEXT-5: the checksum before the opcode. -/
theorem test_decExt_priority :
    responseOf (exec (.decExt [0xFF, 1, 0, 0x5D, 0, 0x10, 0x6E] 0x51) State.reset) =
        some (.error (.unexpectedOpcode 0x51 0x5D)) ∧
      responseOf (exec (.decExt [0xFF, 1, 0, 0x5D, 0, 0x10, 0x6F] 0x51) State.reset) =
        some (.error (.checksumMismatch 0x6F 0x6E)) := by decide

/-- S3, S3a. -/
theorem test_valRange_pan_variants :
    responseOf (exec (.valRange 1 64) (block .max63 false)) = some (.error (.outOfRange .panSpeed 64 0 63)) ∧
      responseOf (exec (.valRange 1 64) (block .max64 false)) = some (.ok .statusOnly) ∧
      responseOf (exec (.valRange 1 65) (block .max64 false)) = some (.error (.outOfRange .panSpeed 65 0 64)) := by decide

/-- V-VR-20, V-VR-23. -/
theorem test_valRange_extremes :
    responseOf (exec (.valRange 17 (-2147483648)) State.reset) =
        some (.error (.outOfRange .irisLevel (-2147483648) 0 65535)) ∧
      responseOf (exec (.valRange 31 (-5)) State.reset) = some (.error (.illegalField 31)) := by decide

/-- V-VX-10. -/
theorem test_valExcl_two_groups :
    responseOf (exec (.valExcl (flagSet [.irisOpen, .irisClose, .zoomTele, .zoomWide])) State.reset) =
      some (.error (.conflictingFlags 0b10100)) := by decide

/-- V-VX-8, V-VX-9. -/
theorem test_valExcl_one_per_group :
    responseOf (exec (.valExcl 0x0155) State.reset) = some (.ok .statusOnly) ∧
      responseOf (exec (.valExcl 0x02AA) State.reset) = some (.ok .statusOnly) := by decide

/-- V-STD-16, V-STD-17: the bits of both command bytes under the default bitmap. -/
theorem test_encStd_default_bitmap :
    responseOf (exec (.encStd 1 (flagSet [.sense, .scan, .camera]) 0 0) (block .max63 false)) =
        some (.ok (.frame ⟨0xFF, 1, 0x98, 0, 0, 0, 0x99⟩)) ∧
      responseOf (exec (.encStd 1 (flagSet [.panLeft, .tiltUp, .zoomTele, .focusFar, .irisOpen]) 0x3F 0x3F) (block .max63 false)) =
        some (.ok (.frame ⟨0xFF, 1, 0x02, 0xAC, 0x3F, 0x3F, 0x2D⟩)) := by decide

/-- S4, V-STD-21, V-STD-22, V-STD-23: the order of the errors. -/
theorem test_encStd_priority :
    responseOf (exec (.encStd 0 (flagSet [.panLeft, .panRight]) 200 200) State.reset) = some (.error (.conflictingFlags 1)) ∧
      responseOf (exec (.encStd 0 0 64 64) State.reset) = some (.error (.outOfRange .address 0 1 255)) ∧
      responseOf (exec (.encStd 1 0 64 64) (block .max63 false)) = some (.error (.outOfRange .panSpeed 64 0 63)) ∧
      responseOf (exec (.encStd 1 0 64 64) (block .max64 false)) = some (.error (.outOfRange .tiltSpeed 64 0 63)) := by decide

/-- V-EXT-3. -/
theorem test_encExt_sub_opcode_and_payload :
    responseOf (exec (.encExt 0x10 3 (some 7) 0xABCD) State.reset) =
      some (.ok (.frame ⟨0xFF, 0x10, 7, 3, 0xAB, 0xCD, 0x92⟩)) := by decide

/-- V-EXT-5, V-EXT-7. -/
theorem test_encExt_even_opcode :
    responseOf (exec (.encExt 1 4 (some 0) 0) State.reset) = some (.error (.evenOpcode 4)) ∧
      responseOf (exec (.encExt 1 4 (some 0) 0) { State.reset with cfg := { configWith .max63 false with extOpcodeOddCheck := false } }) =
        some (.ok (.frame ⟨0xFF, 1, 0, 4, 0, 0, 5⟩)) ∧
      responseOf (exec (.encExt 0 4 (some 0) 0) State.reset) = some (.error (.outOfRange .address 0 1 255)) := by decide

/-! ## The machine and the pseudo-operations -/

/-- V-RST-2: a request dropped by a reset is never answered. -/
theorem test_reset_drops_request :
    received (Host.Core.run Sys2Proof.core 3
      { State.reset with schedule := [.submit (encode (.cksum 1 0 5 0 1)), .reset] }) = some (true, []) := by decide

/-- V-RST-3: an error leaves nothing behind. -/
theorem test_error_leaves_nothing :
    received (Host.Core.run Sys2Proof.core 4
      { block .max63 true with
        schedule := [.submit (encode (.decGen [0xFF, 1, 0, 2])), .submit (encode (.decGen [0xFF, 1, 0, 1]))] }) =
      some (true, [.error (.checksumMismatch 2 1), .ok (.gen ⟨1, 0, 1⟩)]) := by decide

/-- P2, requests 1a and 1b. -/
theorem test_goto_preset :
    received (Host.Core.run Sys2Proof.core 4 { State.reset with schedule := pseudoMoves (configWith .max64 true) (.gotoPreset 5 3) }) =
      some (true, [.ok .statusOnly, .ok (.frame ⟨0xFF, 5, 0, 5, 0, 3, 0x0D⟩)]) := by decide

/-- P2, request 6: the sequence stops at the range error. -/
theorem test_goto_preset_zero_stops :
    received (Host.Core.run Sys2Proof.core 4 { State.reset with schedule := pseudoMoves (configWith .max64 true) (.gotoPreset 5 0) }) =
      some (true, [.error (.outOfRange .presetId 0 1 255)]) := by decide

/-- V-PS-5. -/
theorem test_tilt_up_too_fast :
    received (Host.Core.run Sys2Proof.core 2 { block .max63 true with schedule := pseudoMoves (configWith .max63 true) (.tiltUp 1 0x40) }) =
      some (true, [.error (.outOfRange .tiltSpeed 64 0 63)]) := by decide

/-! ## The notation (30_encoding.md R61) -/

/-- The example line of R61 and its response. -/
theorem test_notation_extended :
    (parseLine (configWith .max63 true) "ENC_EXT address=0x01, opcode=0x05, sub_opcode=0x00, payload16=0x0001").toOption =
        some [.encExt 1 5 (some 0) 1] ∧
      responseText (.ok (.frame ⟨0xFF, 1, 0, 5, 0, 1, 7⟩)) = "-> OK frame=[FF 01 00 05 00 01 07]" := by decide

/-- P2, line 4: a byte sequence, with a comment after it. -/
theorem test_notation_bytes :
    (parseLine (configWith .max63 true) "DEC_EXT in=[FF 05 00 51 0B B8 19], expected_opcode=0x51 ; reply").toOption =
      some [.decExt [0xFF, 5, 0, 0x51, 0x0B, 0xB8, 0x19] 0x51] := by decide

/-- V-VR-7 as written, and its response for `M = 63`. -/
theorem test_notation_negative :
    (parseLine (configWith .max63 true) "VAL_RANGE field=PAN_SPEED, value=-1").toOption = some [.valRange 1 (-1)] ∧
      responseText (.error (.outOfRange .panSpeed (-1) 0 63)) = "-> OutOfRange(field=PAN_SPEED, value=-1, min=0, max=63)" := by
  decide

/-- An operand may be omitted only where R26 says it is optional. -/
theorem test_notation_missing_operand :
    (match parseLine (configWith .max63 true) "CKSUM address=1, c1=0, c2=5, d1=0" with
      | .error e => some e
      | .ok _ => none) = some (.missingOperand "d2") := by decide

/-! ## Witnesses: a state and operands that meet the hypotheses of each statement -/

/-- A block that holds the request of V-CK-1 with nothing else to come. -/
def holding (req : Request) (moves : List Move) : State := { State.reset with hs := .busy req, schedule := moves }

theorem witness_CksumIgnoresOperandOrder :
    ([0x01, 0x00, 0x51, 0x00, 0x10] : List Byte).Perm [0x10, 0x00, 0x51, 0x00, 0x01] := by decide

theorem witness_DecCmdAnswersEveryBuffer :
    (([] : List Byte).length ≠ 7 ∧ ([0xFF, 1, 0, 5, 0, 1] : List Byte).length ≠ 7 ∧
      ([0xFF, 0xFF, 0xFF, 0xFF, 0xFF, 0xFF, 0xFF, 0xFF] : List Byte).length ≠ 7) ∧
      (0xFE : Byte) ≠ 0xFF ∧ (0x08 : Byte) ≠ fiveSum 1 0 5 0 1 := by decide

theorem witness_DecGenAnswersEveryBuffer :
    (([0xFF, 1, 0] : List Byte).length ≠ 4 ∧ ([0xFF, 1, 0, 1, 0] : List Byte).length ≠ 4) ∧ (0x00 : Byte) ≠ 0xFF ∧
      ((block .max63 true).cfg.verifyGeneralChecksum = true ∧ (2 : Byte) ≠ twoSum 1 0) ∧
      ((block .max63 false).cfg.verifyGeneralChecksum = false) ∧ (0xFE : Byte) = twoSum 0xFF 0xFF := by decide

theorem witness_DecExtAnswersEveryBuffer :
    ([0xFF, 1, 0, 0x51, 0x12, 0x34] : List Byte).length ≠ 7 ∧ (0xFE : Byte) ≠ 0xFF ∧
      (0x6F : Byte) ≠ fiveSum 1 0 0x5D 0 0x10 ∧ (0x5D : Byte) ≠ 0x51 := by decide

theorem witness_DecodeThenRawEncodeIsIdentity :
    exec (.decCmd [0xFF, 1, 0, 5, 0, 1, 7]) State.reset =
      .next (answered State.reset (.ok (.cmd ⟨1, 0, 5, 0, 1, 7⟩))) := rfl

theorem witness_ChecksumDetectsOneChangedByte :
    exec (.decCmd [0xFF, 1, 0, 5, 0, 1, 7]) State.reset =
        .next (answered State.reset (.ok (.cmd ⟨1, 0, 5, 0, 1, 7⟩))) ∧
      exec (.decExt [0xFF, 1, 0, 5, 0, 1, 7] 5) State.reset =
        .next (answered State.reset (.ok (.ext ⟨1, 0, 5, 0, 1, 7, 1⟩))) ∧
      ([0xFF, 1, 0, 5, 0, 1, 7] : List Byte)[1]? ≠ some (2 : Byte) ∧
      ([0xFF, 1, 0, 5, 0, 1, 7] : List Byte)[6]? ≠ some (8 : Byte) ∧
      fiveSum 0 1 5 1 0 = fiveSum 1 0 5 0 1 :=
  ⟨rfl, rfl, by decide, by decide, by decide⟩

theorem witness_OnlyDecGenReadsTheToggle :
    readsNoConfig (.decExt [] 0) = true ∧
      (configWith .max64 true).verifyGeneralChecksum = (block .max63 true).cfg.verifyGeneralChecksum := by decide

theorem witness_ValRangeFollowsTheRangeTable :
    (1, 0, 63) ∈ rangeRows (block .max63 true).cfg ∧ ((0 : Int) ≤ 63 ∧ (63 : Int) ≤ 63) ∧ ((-1 : Int) < 0) ∧ ((63 : Int) < 64) ∧
      18 ≤ (18 : FieldBits).toNat ∧ 18 ≤ (31 : FieldBits).toNat := by
  decide

theorem no_flags_unopposed : ∀ k, k < 5 → ¬ opposed 0 k := by
  intro k _ h
  simp [opposed] at h

theorem pan_flags_opposed : ∃ k, k < 5 ∧ opposed 0x0003 k := ⟨0, by decide, by decide, by decide⟩

theorem iris_flags_opposed : ∃ k, k < 5 ∧ opposed 0x0300 k := ⟨4, by decide, by decide, by decide⟩

theorem witness_ValExclReportsEveryConflict :
    (∀ k, k < 5 → ¬ opposed 0 k) ∧ (∃ k, k < 5 ∧ opposed 0x0003 k) ∧ ∃ k, k < 5 ∧ opposed 0x0300 k :=
  ⟨no_flags_unopposed, pan_flags_opposed, iris_flags_opposed⟩

theorem witness_ValExclIgnoresUngroupedFlags : ∀ j, j < 10 → (0x1C03 : Flags).getLsbD j = (0x0003 : Flags).getLsbD j := by
  decide

theorem witness_EncStdAnswersEveryRequest :
    (∃ k, k < 5 ∧ opposed 0x0003 k) ∧ (∀ k, k < 5 → ¬ opposed 0 k) ∧ (1 : Byte) ≠ 0 ∧
      panMax (block .max63 true).cfg < (64 : Byte).toNat ∧ (63 : Byte).toNat ≤ panMax (block .max63 true).cfg ∧
      (block .max63 true).cfg.tiltSpeedMax.toNat < (64 : Byte).toNat ∧
      (63 : Byte).toNat ≤ (block .max63 true).cfg.tiltSpeedMax.toNat :=
  ⟨pan_flags_opposed, no_flags_unopposed, by decide⟩

theorem witness_DefaultBitmapLaysOutTheFlags :
    (block .max63 true).cfg.stdFlagBitmap = defaultBitmap ∧ (∀ k, k < 5 → ¬ opposed 0 k) ∧ (1 : Byte) ≠ 0 ∧
      (0 : Byte).toNat ≤ panMax (block .max63 true).cfg ∧ (0 : Byte).toNat ≤ (block .max63 true).cfg.tiltSpeedMax.toNat :=
  ⟨rfl, no_flags_unopposed, by decide⟩

theorem witness_EncStdFrameShowsTheRequest :
    exec (.encStd 2 6 0x10 8) (block .max63 true) =
        .next (answered (block .max63 true) (.ok (.frame ⟨0xFF, 2, 0, 0x0C, 0x10, 8, 0x26⟩))) ∧
      (block .max63 true).cfg.stdFlagBitmap.distinct = true ∧ flagBit .panLeft = 2 * 0 + 1 ∧ flagBit .panRight = 2 * 0 :=
  ⟨rfl, by decide, rfl, rfl⟩

theorem witness_EncStdIsInjective :
    (block .max63 true).cfg.stdFlagBitmap.distinct = true ∧
      exec (.encStd 2 6 0x10 8) (block .max63 true) =
        .next (answered (block .max63 true) (.ok (.frame ⟨0xFF, 2, 0, 0x0C, 0x10, 8, 0x26⟩))) ∧
      exec (.encStd 3 6 0x10 8) (block .max63 true) =
        .next (answered (block .max63 true) (.ok (.frame ⟨0xFF, 3, 0, 0x0C, 0x10, 8, 0x27⟩))) :=
  ⟨by decide, rfl, rfl⟩

theorem witness_EncExtAnswersEveryRequest :
    (1 : Byte) ≠ 0 ∧ ((block .max63 true).cfg.extOpcodeOddCheck = true ∧ (4 : Byte).toNat % 2 = 0) ∧
      (5 : Byte).toNat % 2 = 1 ∧ ((some (7 : Byte) : Option Byte) = some 7) ∧
      ((none : Option Byte) = none ∧ (0 : Byte) = 0x00) ∧ (0xAB : Byte).toNat = (0xABCD : Half).toNat / 256 ∧
      (0xCD : Byte).toNat = (0xABCD : Half).toNat % 256 := by decide

theorem witness_EncExtIsInjective :
    exec (.encExt 1 0x51 none 0) State.reset =
        .next (answered State.reset (.ok (.frame ⟨0xFF, 1, 0, 0x51, 0, 0, 0x52⟩))) ∧
      exec (.encExt 1 0x51 (some 0) 0) State.reset =
        .next (answered State.reset (.ok (.frame ⟨0xFF, 1, 0, 0x51, 0, 0, 0x52⟩))) := ⟨rfl, rfl⟩

theorem witness_LowBitOfCommand2TellsTheShape :
    ((block .max63 true).cfg.stdFlagBitmap = defaultBitmap ∧
      exec (.encStd 2 6 0x10 8) (block .max63 true) =
        .next (answered (block .max63 true) (.ok (.frame ⟨0xFF, 2, 0, 0x0C, 0x10, 8, 0x26⟩)))) ∧
      (State.reset.cfg.extOpcodeOddCheck = true ∧
        exec (.encExt 1 0x51 none 0) State.reset =
          .next (answered State.reset (.ok (.frame ⟨0xFF, 1, 0, 0x51, 0, 0, 0x52⟩)))) := ⟨⟨rfl, rfl⟩, rfl, rfl⟩

theorem witness_EveryFrameIsARawFrameThatDecodes :
    exec (.encExt 1 0x51 none 0) State.reset =
      .next (answered State.reset (.ok (.frame ⟨0xFF, 1, 0, 0x51, 0, 0, 0x52⟩))) := rfl

theorem witness_DecodeEncodeIsIdentity :
    (Instr.valRange 31 (-2147483648)).wellFormed = true ∧ (Instr.valRange 0 2147483647).wellFormed = true := by decide

theorem witness_DecodedOperationIsWellFormed :
    decode { op := 0b0101, field := 1, value := 0x80000000 } = .ok (.valRange 1 (-2147483648)) := rfl

/-- Two requests for CKSUM that differ in a field CKSUM does not read. -/
theorem witness_OperationReadsOnlyItsFields :
    ∃ r q : Request, r ≠ q ∧ r.op = q.op ∧ r.op.toNat = 0 ∧ r.address = q.address ∧ r.c1 = q.c1 ∧ r.c2 = q.c2 ∧ r.d1 = q.d1 ∧
      r.d2 = q.d2 :=
  ⟨{ op := 0, opcode := 1 }, { op := 0 }, by decide⟩

theorem witness_SelectorsSelectTheirOperations : 9 ≤ ({ op := 9 } : Request).op.toNat ∧ 9 ≤ ({ op := 15 } : Request).op.toNat := by
  decide

theorem witness_ReservedSelectorIsIllegalOperation :
    9 ≤ ({ op := 9 } : Request).op.toNat ∧ (holding { op := 9 } []).hs = .busy { op := 9 } ∧ codecTurn (holding { op := 9 } []) [] :=
  ⟨by decide, rfl, .inr ⟨rfl, .inl rfl⟩⟩

theorem witness_StepRunsTheDecodedOperation :
    (holding { op := 0 } [.codec, .reset]).hs = .busy { op := 0 } ∧ decode { op := 0 } = .ok (.cksum 0 0 0 0 0) ∧
      codecTurn (holding { op := 0 } [.codec, .reset]) [.reset] :=
  ⟨rfl, rfl, .inl rfl⟩

theorem witness_RequestAcceptedOnlyWhileIdle :
    (State.reset.hs = .idle ∧ ({ State.reset with schedule := [.submit { op := 0 }] } : State).schedule = .submit { op := 0 } :: []) ∧
      ((holding { op := 0 } [.submit { op := 1 }]).hs = .busy { op := 0 } ∧
        (holding { op := 0 } [.submit { op := 1 }]).schedule = .submit { op := 1 } :: []) := ⟨⟨rfl, rfl⟩, rfl, rfl⟩

theorem witness_ResetDropsTheHeldRequest : (holding { op := 0 } [.reset]).schedule = .reset :: [] := rfl

theorem witness_ConfigurationNeverChanges :
    step (holding { op := 0 } [.pass]) = .next (holding { op := 0 } []) := rfl

theorem witness_BusyEndsByResponseOrReset :
    ∃ t, (holding { op := 0 } []).hs = .busy { op := 0 } ∧ step (holding { op := 0 } []) = .next t := ⟨_, rfl, rfl⟩

theorem witness_BusyCodecReturnsToIdle : (holding { op := 0 } [.pass, .pass]).hs = .busy { op := 0 } := rfl

theorem witness_ResponseIgnoresHistory :
    (holding { op := 0 } []).hs = .busy { op := 0 } ∧
      ({ holding { op := 0 } [.codec] with received := [.ok .statusOnly] } : State).hs = .busy { op := 0 } ∧
      codecTurn (holding { op := 0 } []) [] ∧
      codecTurn { holding { op := 0 } [.codec] with received := [.ok .statusOnly] } [] :=
  ⟨rfl, rfl, .inr ⟨rfl, .inl rfl⟩, .inl rfl⟩

theorem witness_ProgramIsAnsweredRequestByRequest :
    ({ State.reset with schedule := [.submit { op := 0 }, .submit { op := 9 }] } : State).hs = .idle ∧
      ({ State.reset with schedule := [.submit { op := 0 }, .submit { op := 9 }] } : State).schedule =
        ([{ op := 0 }, { op := 9 }] : List Request).map Move.submit := ⟨rfl, rfl⟩

theorem witness_StepKeepsTheInvariant :
    State.reset.Inv ∧ step State.reset = .next State.reset :=
  ⟨⟨by decide, fun _ _ => rfl, fun _ h => (nomatch h), fun _ h => (nomatch h)⟩, rfl⟩

theorem witness_StopDeliversTheZeroFrame :
    (1 : Byte) ≠ 0 ∧ ({ State.reset with schedule := pseudoMoves State.reset.cfg (.stop 1) } : State).hs = .idle := ⟨by decide, rfl⟩

theorem witness_SequenceStopsAtTheFirstError :
    (∀ i ∈ [Instr.valRange 3 0, Instr.encExt 1 5 none 0], i.wellFormed = true) ∧
      ({ State.reset with schedule := sequenceMoves [.valRange 3 0, .encExt 1 5 none 0] } : State).hs = .idle :=
  ⟨by decide, rfl⟩

theorem witness_GotoPresetValidatesThenEncodes :
    ((Pseudo.gotoPreset 1 256).wellFormed = true ∧ ((255 : Int) < 256) ∧ (0 : Int) < (presetMin State.reset.cfg : Int)) ∧
      (presetMin State.reset.cfg ≤ (1 : Byte).toNat ∧ State.reset.cfg.gotoPresetOpcode.toNat % 2 = 1 ∧ (1 : Byte) ≠ 0) ∧
      State.reset.hs = .idle := by decide

theorem witness_WrittenRequestsAreWellFormed :
    (Pseudo.gotoPreset 1 256).wellFormed = true ∧
      parseLine (configWith .max63 true) "VAL_EXCL flags=0x1FFF" = .ok [.valExcl 0x1FFF] := ⟨by decide, rfl⟩

end Sys2Proof.Tests
end

section
/-! PROOFS. What the codec's turn delivers, and that no response depends on what went before it (10_state.md R14). -/

namespace Sys2Proof.Proofs

open Sys2Proof.Machine Sys2Proof.Stated

/-- When it is the codec's turn, a BUSY block serves the request it holds. -/
theorem busyStep_of_codecTurn (req : Request) {s : State} {rest : List Move} (turn : codecTurn s rest) :
    busyStep req s = serve req { s with schedule := rest } := by
  rcases turn with hcodec | ⟨rfl, hwaits⟩
  · rw [busyStep, hcodec]
  · change busyStep req s = serve req s
    rcases hwaits with hempty | ⟨waiting, more, hsubmit | hsubmitIfOk⟩
    · rw [busyStep, hempty]
    · rw [busyStep, hsubmit]
    · rw [busyStep, hsubmitIfOk]

/-- The step of the codec's turn delivers the pure response to the held request, and `rest` are the moves still to come. -/
theorem step_of_codecTurn {req : Request} {s : State} {rest : List Move} (held : s.hs = .busy req)
    (turn : codecTurn s rest) :
    step s = .next (State.deliver { s with schedule := rest } (respond s.cfg req)) := by
  rw [step_busy held, busyStep_of_codecTurn req turn, serve_eq_deliver]

/-- Settles O36: the response is `respond` of the configuration and the request, which the two states share. -/
theorem responseIgnoresHistory : Obligations.ResponseIgnoresHistory := by
  intro req rest rest' s s' held held' sameCfg turn turn'
  have hstep' := step_of_codecTurn held' turn'
  rw [← sameCfg] at hstep'
  exact ⟨respond s.cfg req, _, _, step_of_codecTurn held turn, hstep', rfl, rfl, rfl, rfl⟩

end Sys2Proof.Proofs
end

section
/-! PROOFS. The nine selectors and the reserved ones (30_encoding.md R64, R65), and that a written request is read back. -/

namespace Sys2Proof.Proofs

open Sys2Proof.Machine Sys2Proof.Stated

/-- A reserved selector is rejected by its value, whatever the operands (R65). -/
theorem decode_of_reserved {r : Request} (reserved : 9 ≤ r.op.toNat) : decode r = .error (.reservedSelector r.op) := by
  obtain ⟨k, hk⟩ := Nat.exists_eq_add_of_le' reserved
  rw [decode, hk]
  rfl

/-- The pure response to a reserved selector is IllegalOperation (R65). -/
theorem respond_of_reserved (cfg : Config) {r : Request} (reserved : 9 ≤ r.op.toNat) :
    respond cfg r = .error (.illegalOperation r.op) := by
  rw [respond, decode_of_reserved reserved]

/-- A signed value that fits 32 bits survives its two's-complement form (10_state.md R26). -/
theorem toInt_ofInt_of_fits32 {v : Int} (fits : fits32 v = true) : (BitVec.ofInt 32 v).toInt = v := by
  simp only [fits32, Bool.and_eq_true, decide_eq_true_eq] at fits
  rw [BitVec.toInt_ofInt]
  exact Int.bmod_eq_of_le (by omega) (by omega)

/-- The decoder reads back the request a well-formed operation is written as. -/
theorem decode_encode_of_wellFormed {i : Instr} (wf : i.wellFormed = true) : decode (encode i) = .ok i := by
  cases i with
  | valRange field value =>
    change Except.ok (Instr.valRange field (BitVec.ofInt 32 value).toInt) = _
    rw [toInt_ofInt_of_fits32 wf]
  | _ => rfl

/-- The pure response to the request of a well-formed operation is the operation's. -/
theorem respond_encode (cfg : Config) {i : Instr} (wf : i.wellFormed = true) :
    respond cfg (encode i) = instrResponse cfg i := by
  rw [respond, decode_encode_of_wellFormed wf]

/-- Settles O25: each pattern by its own arm of the decoder, the reserved ones by `decode_of_reserved`. -/
theorem selectorsSelectTheirOperations : Obligations.SelectorsSelectTheirOperations := fun _ =>
  ⟨rfl, rfl, rfl, rfl, rfl, rfl, rfl, rfl, rfl, decode_of_reserved⟩

/-- Settles O26: the codec's turn delivers the pure response, which for a reserved selector is IllegalOperation. -/
theorem reservedSelectorIsIllegalOperation : Obligations.ReservedSelectorIsIllegalOperation := by
  intro r rest s reserved held turn
  rw [step_of_codecTurn held turn, respond_of_reserved s.cfg reserved]
  rfl

end Sys2Proof.Proofs
end

section
/-! PROOFS. The range table (41_validator.md R89, R90) and the range checks of bytes. -/

namespace Sys2Proof.Proofs

open Sys2Proof.Machine Sys2Proof.Stated

theorem panMax_eq (c : Config) : panMax c = panSpeedMaxValue c.panSpeedMax := by
  unfold panMax
  cases c.panSpeedMax <;> rfl

theorem presetMin_eq (c : Config) : presetMin c = presetIdMinValue c.presetIdMin := by
  unfold presetMin
  cases c.presetIdMin <;> rfl

/-- The table of R89 lists each named field's number with the bounds the model checks. -/
theorem rangeRows_eq (c : Config) : rangeRows c = FieldId.all.map (fun f => (fieldNumber f, rangeOf c f)) := by
  rw [rangeRows, panMax_eq, presetMin_eq]
  rfl

/-- A field stands in the list of all fields at its number. -/
theorem fieldId_all_getElem (f : FieldId) : FieldId.all[fieldNumber f]? = some f := by
  cases f <;> rfl

/-- The range check fails on a value outside the bounds. -/
theorem checkRange_of_outside {cfg : Config} {f : FieldId} {v : Int}
    (outside : v < (rangeOf cfg f).1 ∨ (rangeOf cfg f).2 < v) :
    checkRange cfg f v = some (.outOfRange f v (rangeOf cfg f).1 (rangeOf cfg f).2) := by
  rw [checkRange, if_pos outside]

/-- VAL_RANGE is OK on a value within the bounds of its field. -/
theorem valRangeResponse_of_inside {cfg : Config} {f : FieldId} {v : Int}
    (inside : (rangeOf cfg f).1 ≤ v ∧ v ≤ (rangeOf cfg f).2) :
    valRangeResponse cfg (BitVec.ofNat 5 (fieldNumber f)) v = .ok .statusOnly := by
  simp only [valRangeResponse, fieldOfBits_fieldNumber, (checkRange_none_iff cfg f v).mpr inside]

/-- VAL_RANGE reports the field, the value and the bounds of a value outside them. -/
theorem valRangeResponse_of_outside {cfg : Config} {f : FieldId} {v : Int}
    (outside : v < (rangeOf cfg f).1 ∨ (rangeOf cfg f).2 < v) :
    valRangeResponse cfg (BitVec.ofNat 5 (fieldNumber f)) v =
      .error (.outOfRange f v (rangeOf cfg f).1 (rangeOf cfg f).2) := by
  simp only [valRangeResponse, fieldOfBits_fieldNumber, checkRange_of_outside outside]

/-- VAL_RANGE reports a reserved field id whatever the value (30_encoding.md R67). -/
theorem valRangeResponse_of_reserved (cfg : Config) {field : FieldBits} (v : Int) (reserved : 18 ≤ field.toNat) :
    valRangeResponse cfg field v = .error (.illegalField field) := by
  simp only [valRangeResponse, (fieldOfBits_none_iff field).mpr reserved]

/-- Settles O11: a row of the table is a named field with its bounds, and the value is within them or not. -/
theorem valRangeFollowsTheRangeTable : Obligations.ValRangeFollowsTheRangeTable := by
  refine ⟨fun s row v hrow => ?_, fun field v s reserved => ?_⟩
  · rw [rangeRows_eq] at hrow
    obtain ⟨f, -, rfl⟩ := List.mem_map.mp hrow
    refine ⟨fun inside => ?_, fun outside => ⟨f, fieldId_all_getElem f, ?_⟩⟩
    · rw [exec_eq_deliver, instrResponse, valRangeResponse_of_inside inside]
      rfl
    · rw [exec_eq_deliver, instrResponse, valRangeResponse_of_outside outside]
      rfl
  · rw [exec_eq_deliver, instrResponse, valRangeResponse_of_reserved s.cfg v reserved]
    rfl

/-- Every address but 0 passes the address check of the shapes (42_shapes.md R97, R99). -/
theorem checkByte_address_of_ne_zero (cfg : Config) {a : Byte} (ha : a ≠ 0) : checkByte cfg .address a = none := by
  refine (checkRange_none_iff cfg .address _).mpr ?_
  have hpos : a.toNat ≠ 0 := fun h => ha (BitVec.eq_of_toNat_eq h)
  have hlt := a.isLt
  simp only [rangeOf]
  omega

/-- Address 0 fails the address check with the bounds 1 and 255. -/
theorem checkByte_address_zero (cfg : Config) : checkByte cfg .address 0 = some (.outOfRange .address 0 1 255) := rfl

end Sys2Proof.Proofs
end

section
/-! PROOFS. The run of a sequence that stops at its first error (30_encoding.md R69). -/

namespace Sys2Proof.Proofs

open Sys2Proof.Machine Sys2Proof.Stated

/-- The first response is delivered; the others only if it is OK. -/
theorem upToFirstError_cons (r : Response) (rs : List Response) :
    upToFirstError (r :: rs) = r :: if r.isOk then upToFirstError rs else [] := by
  cases r <;> rfl

/-- In `n` steps the block comes to rest: IDLE, the configuration as before, no move to come, and exactly `rs` received. -/
def RestsAfter (n : Nat) (s : State) (rs : List Response) : Prop :=
  ∃ t : State, Host.Core.run Sys2Proof.core n s = .next t ∧ t.hs = .idle ∧ t.cfg = s.cfg ∧ t.schedule = [] ∧
    t.received = s.received ++ rs

/-- An IDLE block with no move to come is at rest. -/
theorem restsAfter_zero {s : State} (idle : s.hs = .idle) (noMove : s.schedule = []) : RestsAfter 0 s [] :=
  ⟨s, run_zero s, idle, rfl, noMove, (List.append_nil _).symm⟩

/-- A block at rest waits. -/
theorem RestsAfter.wait {n : Nat} {s : State} {rs : List Response} (h : RestsAfter n s rs) : RestsAfter (n + 1) s rs := by
  obtain ⟨t, hrun, idle, hcfg, noMove, hreceived⟩ := h
  have hstep : step t = .next t := by rw [step_idle idle, idleStep, noMove]
  exact ⟨t, by rw [run_append hrun, run_of_step hstep, run_zero], idle, hcfg, noMove, hreceived⟩

/-- An IDLE block that has just answered something other than OK passes over a `submitIfOk`. -/
theorem RestsAfter.skip {n : Nat} {s : State} {req : Request} {rest : List Move} {rs : List Response}
    (idle : s.hs = .idle) (hmoves : s.schedule = .submitIfOk req :: rest) (notOk : s.lastOk = false)
    (h : RestsAfter n { s with schedule := rest } rs) : RestsAfter (n + 1) s rs := by
  have hstep : step s = .next { s with schedule := rest } := by
    simp only [step_idle idle, idleStep, hmoves, notOk, Bool.false_eq_true, if_false]
  obtain ⟨t, hrun, ht⟩ := h
  exact ⟨t, (run_of_step hstep).trans hrun, ht⟩

/-- A block that accepts a request before moves that wait for its answer delivers the response and goes on from there. -/
theorem RestsAfter.answer {n : Nat} {s : State} {req : Request} {rest : List Move} {rs : List Response}
    (haccept : step s = .next (State.accept { s with schedule := rest } req))
    (waits : codecTurn (State.accept { s with schedule := rest } req) rest)
    (h : RestsAfter n (State.deliver { s with schedule := rest } (respond s.cfg req)) rs) :
    RestsAfter (n + 2) s (respond s.cfg req :: rs) := by
  have hanswer := step_of_codecTurn rfl waits
  obtain ⟨t, hrun, idle, hcfg, noMove, hreceived⟩ := h
  refine ⟨t, ?_, idle, hcfg, noMove, ?_⟩
  · rw [run_of_step haccept, run_of_step hanswer]
    exact hrun
  · rw [hreceived, State.deliver_received, List.append_assoc]
    rfl

/-- The moves of a sequence after its first request. -/
def laterMoves (instrs : List Instr) : List Move := instrs.map (fun i => .submitIfOk (encode i))

/-- The later moves of a sequence wait while a request is held. -/
theorem codecTurn_laterMoves (s : State) (instrs : List Instr) (hmoves : s.schedule = laterMoves instrs) :
    codecTurn s (laterMoves instrs) := by
  refine .inr ⟨hmoves.symm, ?_⟩
  cases instrs with
  | nil => exact .inl hmoves
  | cons i rest => exact .inr ⟨encode i, laterMoves rest, .inr hmoves⟩

/-- A well-formed operation accepted before later moves delivers its response; an OK response goes on with the rest. -/
theorem restsAfter_issue {n : Nat} {i : Instr} {rest : List Instr} {s : State} (wf : i.wellFormed = true)
    (haccept : step s = .next (State.accept { s with schedule := laterMoves rest } (encode i)))
    (h : RestsAfter n (State.deliver { s with schedule := laterMoves rest } (instrResponse s.cfg i))
      (if (instrResponse s.cfg i).isOk then upToFirstError (rest.map (instrResponse s.cfg)) else [])) :
    RestsAfter (n + 2) s (upToFirstError ((i :: rest).map (instrResponse s.cfg))) := by
  rw [← respond_encode s.cfg wf] at h
  have hall := RestsAfter.answer haccept (codecTurn_laterMoves _ rest rfl) h
  rwa [respond_encode s.cfg wf, ← upToFirstError_cons] at hall

/-- What the block does with the later moves of a sequence: it delivers the responses up to the first error if the last one was OK,
and nothing otherwise. -/
theorem restsAfter_laterMoves (instrs : List Instr) (s : State) (wf : ∀ i ∈ instrs, i.wellFormed = true)
    (idle : s.hs = .idle) (hmoves : s.schedule = laterMoves instrs) :
    RestsAfter (2 * instrs.length) s
      (if s.lastOk then upToFirstError (instrs.map (instrResponse s.cfg)) else []) := by
  induction instrs generalizing s with
  | nil => simpa [upToFirstError] using restsAfter_zero idle hmoves
  | cons i rest ih =>
    obtain ⟨wfi, wfrest⟩ := List.forall_mem_cons.mp wf
    cases hok : s.lastOk with
    | false =>
      have hskipped : State.lastOk { s with schedule := laterMoves rest } = false := hok
      have hrest := ih { s with schedule := laterMoves rest } wfrest idle rfl
      rw [hskipped] at hrest
      exact (hrest.skip idle hmoves hok).wait
    | true =>
      have haccept : step s = .next (State.accept { s with schedule := laterMoves rest } (encode i)) := by
        rw [step_idle idle, idleStep, hmoves]
        exact if_pos hok
      exact restsAfter_issue wfi haccept (ih _ wfrest rfl rfl)

/-- A sequence of well-formed operations delivers its responses up to and with the first error. -/
theorem restsAfter_sequenceMoves {instrs : List Instr} {s : State} (wf : ∀ i ∈ instrs, i.wellFormed = true)
    (idle : s.hs = .idle) (hmoves : s.schedule = sequenceMoves instrs) :
    RestsAfter (2 * instrs.length) s (upToFirstError (instrs.map (instrResponse s.cfg))) := by
  cases instrs with
  | nil => exact restsAfter_zero idle hmoves
  | cons i rest =>
    obtain ⟨wfi, wfrest⟩ := List.forall_mem_cons.mp wf
    have haccept : step s = .next (State.accept { s with schedule := laterMoves rest } (encode i)) := by
      rw [step_idle idle, idleStep, hmoves]
      rfl
    exact restsAfter_issue wfi haccept (restsAfter_laterMoves rest _ wfrest rfl rfl)

/-- Settles O44: the run of the sequence's moves, by induction on the operations after the first. -/
theorem sequenceStopsAtTheFirstError : Obligations.SequenceStopsAtTheFirstError := fun _ _ wf idle hmoves =>
  restsAfter_sequenceMoves wf idle hmoves

end Sys2Proof.Proofs
end

section
/-! PROOFS. The pseudo-operations of 30_encoding.md section 7: what they expand to and what their runs deliver. -/

namespace Sys2Proof.Proofs

open Sys2Proof.Machine Sys2Proof.Stated

/-- Settles O42: each expansion is one arm of `expand`, and a set of one flag is that flag's bit. -/
theorem pseudoOperationsExpandAsListed : Obligations.PseudoOperationsExpandAsListed := fun _ _ _ _ _ _ =>
  ⟨rfl, rfl, rfl, rfl, rfl, rfl, rfl, rfl, rfl, rfl, rfl, rfl⟩

/-- Settles O46: both expand to GOTO_PRESET with the given id. -/
theorem flipAndZeroPanAreGotoPreset : Obligations.FlipAndZeroPanAreGotoPreset := fun _ _ => ⟨rfl, rfl⟩

/-- The model's checksum of five bytes is their sum modulo 256. -/
theorem sum8_five (a b c d e : Byte) : sum8 [a, b, c, d, e] = fiveSum a b c d e := by
  simp [sum8, fiveSum, Nat.add_assoc]

/-- A command frame as its seven bytes. -/
theorem commandFrame_eq (a c1 c2 d1 d2 : Byte) :
    commandFrame a c1 c2 d1 d2 = ⟨0xFF, a, c1, c2, d1, d2, fiveSum a c1 c2 d1 d2⟩ := by
  rw [commandFrame, sum8_five]
  rfl

/-- A byte and four zeros sum to the byte. -/
theorem fiveSum_zeros (a : Byte) : fiveSum a 0 0 0 0 = a := by
  have hmod : a.toNat % 256 = a.toNat := Nat.mod_eq_of_lt a.isLt
  simp [fiveSum, hmod]

/-- With no flag set both command bytes are zero, whatever the bitmap (30_encoding.md R53). -/
theorem flagByte_zero (m : FlagBitmap) (which : CmdByte) : flagByte m 0 which = 0 := by
  simp [flagByte, Flag.all, hasFlag]

/-- With no flag set and both speeds zero, ENC_STD checks only the address. -/
theorem encStdError_zero (cfg : Config) {a : Byte} (ha : a ≠ 0) : encStdError cfg a 0 0 0 = none := by
  have hpan : checkByte cfg .panSpeed 0 = none := (checkRange_none_iff cfg .panSpeed _).mpr (by simp [rangeOf])
  have htilt : checkByte cfg .tiltSpeed 0 = none := (checkRange_none_iff cfg .tiltSpeed _).mpr (by simp [rangeOf])
  have hexcl : checkExclusive 0 = none := rfl
  simp only [encStdError, hexcl, checkByte_address_of_ne_zero cfg ha, hpan, htilt, Option.none_or]

/-- STOP's Standard request is answered by the zero frame (30_encoding.md R70). -/
theorem encStdResponse_zero (cfg : Config) {a : Byte} (ha : a ≠ 0) :
    encStdResponse cfg a 0 0 0 = .ok (.frame ⟨0xFF, a, 0, 0, 0, 0, a⟩) := by
  simp only [encStdResponse, encStdError_zero cfg ha, flagByte_zero, commandFrame_eq]
  rw [fiveSum_zeros]

/-- Settles O43: STOP is a sequence of one request, answered by the zero frame. -/
theorem stopDeliversTheZeroFrame : Obligations.StopDeliversTheZeroFrame := by
  intro a s ha idle hmoves
  obtain ⟨t, hrun, tidle, -, -, hreceived⟩ :=
    restsAfter_sequenceMoves (instrs := expand s.cfg (.stop a)) (by simp [expand, Instr.wellFormed]) idle hmoves
  refine ⟨t, hrun, tidle, ?_⟩
  rw [hreceived, ← encStdResponse_zero s.cfg ha]
  simp only [expand, List.map, instrResponse, upToFirstError_cons, upToFirstError, ite_self]

/-- An odd opcode passes the odd-opcode check of ENC_EXT (10_state.md R23). -/
theorem checkOddOpcode_of_odd (cfg : Config) {op : Byte} (odd : op.toNat % 2 = 1) : checkOddOpcode cfg op = none := by
  have hbit : op.getLsbD 0 = true := by rw [BitVec.getLsbD, Nat.testBit_zero, odd]; rfl
  rw [checkOddOpcode, hbit]
  simp

/-- The payload of a preset id that is a byte: zero, then the id (30_encoding.md R74). -/
theorem presetPayload_toNat (n : Byte) : (BitVec.ofInt 16 (n.toNat : Int)).toNat = n.toNat := by
  have := n.isLt
  rw [BitVec.ofInt_natCast, BitVec.toNat_ofNat]
  omega

theorem highByte_presetPayload (n : Byte) : highByte (BitVec.ofInt 16 (n.toNat : Int)) = 0 := by
  apply BitVec.eq_of_toNat_eq
  rw [highByte_toNat, presetPayload_toNat]
  exact Nat.div_eq_of_lt n.isLt

theorem lowByte_presetPayload (n : Byte) : lowByte (BitVec.ofInt 16 (n.toNat : Int)) = n := by
  apply BitVec.eq_of_toNat_eq
  rw [lowByte_toNat, presetPayload_toNat]
  exact Nat.mod_eq_of_lt n.isLt

/-- ENC_EXT's answer to an odd opcode with the payload of a preset id, for an address other than 0 (42_shapes.md R99). -/
theorem encExtResponse_preset (cfg : Config) {a op : Byte} (n : Byte) (ha : a ≠ 0) (odd : op.toNat % 2 = 1) :
    encExtResponse cfg a op (some 0) (BitVec.ofInt 16 (n.toNat : Int)) =
      .ok (.frame ⟨0xFF, a, 0, op, 0, n, fiveSum a 0 op 0 n⟩) := by
  simp only [encExtResponse, checkByte_address_of_ne_zero cfg ha, checkOddOpcode_of_odd cfg odd, Option.none_or,
    subOpcodeByte, Option.getD_some, highByte_presetPayload, lowByte_presetPayload, commandFrame_eq]

/-- ENC_EXT rejects address 0 before anything else (42_shapes.md R99). -/
theorem encExtResponse_address_zero (cfg : Config) (op : Byte) (sub : Option Byte) (v : Half) :
    encExtResponse cfg 0 op sub v = .error (.outOfRange .address 0 1 255) := by
  rw [encExtResponse, checkByte_address_zero, Option.some_or]

/-- The range check of GOTO_PRESET is OK on an id within the preset range (30_encoding.md R74). -/
theorem presetRange_inside {cfg : Config} {n : Byte} (hmin : presetMin cfg ≤ n.toNat) :
    valRangeResponse cfg (BitVec.ofNat 5 (fieldNumber .presetId)) (n.toNat : Int) = .ok .statusOnly := by
  have := n.isLt
  rw [presetMin_eq] at hmin
  refine valRangeResponse_of_inside ?_
  simp only [rangeOf]
  omega

/-- The range check of GOTO_PRESET reports an id outside the preset range. -/
theorem presetRange_outside {cfg : Config} {id : Int} (outside : id < (presetMin cfg : Int) ∨ 255 < id) :
    valRangeResponse cfg (BitVec.ofNat 5 (fieldNumber .presetId)) id =
      .error (.outOfRange .presetId id (presetMin cfg) 255) := by
  rw [presetMin_eq] at outside ⊢
  exact valRangeResponse_of_outside outside

/-- A preset id that is a byte fits the operand of VAL_RANGE. -/
theorem gotoPreset_byte_wellFormed (a n : Byte) : (Pseudo.gotoPreset a (n.toNat : Int)).wellFormed = true := by
  have := n.isLt
  simp only [Pseudo.wellFormed, fits32, Bool.and_eq_true, decide_eq_true_eq]
  omega

/-- The run of GOTO_PRESET: the answer to the range check, and the encoder's answer only if that one is OK (30_encoding.md R69, R74). -/
theorem restsAfter_gotoPreset {a : Byte} {id : Int} {s : State} (wf : (Pseudo.gotoPreset a id).wellFormed = true)
    (idle : s.hs = .idle) (hmoves : s.schedule = pseudoMoves s.cfg (.gotoPreset a id)) :
    RestsAfter 4 s (upToFirstError
      [valRangeResponse s.cfg (BitVec.ofNat 5 (fieldNumber .presetId)) id,
       encExtResponse s.cfg a s.cfg.gotoPresetOpcode (some 0) (BitVec.ofInt 16 id)]) := by
  refine restsAfter_sequenceMoves (instrs := gotoPreset s.cfg a id) ?_ idle hmoves
  intro i hi
  rcases List.mem_pair.mp hi with rfl | rfl
  · exact wf
  · rfl

/-- Settles O45: the id's range check decides whether the Extended request is issued, and its address whether it is encoded. -/
theorem gotoPresetValidatesThenEncodes : Obligations.GotoPresetValidatesThenEncodes := by
  refine ⟨fun a id s wf idle hmoves outside => ?_, fun a n s ha hmin odd idle hmoves => ?_,
    fun n s hmin idle hmoves => ?_, fun p verify => rfl⟩
  · obtain ⟨t, hrun, tidle, -, -, hreceived⟩ := restsAfter_gotoPreset wf idle hmoves
    rw [presetRange_outside outside] at hreceived
    exact ⟨t, hrun, tidle, hreceived⟩
  · obtain ⟨t, hrun, tidle, -, -, hreceived⟩ := restsAfter_gotoPreset (gotoPreset_byte_wellFormed a n) idle hmoves
    rw [presetRange_inside hmin, encExtResponse_preset s.cfg n ha odd] at hreceived
    exact ⟨t, hrun, tidle, hreceived⟩
  · obtain ⟨t, hrun, tidle, -, -, hreceived⟩ := restsAfter_gotoPreset (gotoPreset_byte_wellFormed 0 n) idle hmoves
    rw [presetRange_inside hmin, encExtResponse_address_zero] at hreceived
    exact ⟨t, hrun, tidle, hreceived⟩

end Sys2Proof.Proofs
end

section
/-! PROOFS. The codec family on every operand and every buffer (40_codec.md R79 to R83). -/

namespace Sys2Proof.Proofs

open Sys2Proof.Machine Sys2Proof.Stated

/-- An operation's meaning answers the pure response, with nothing else changed (10_state.md R14). -/
theorem exec_of_response {i : Instr} {s : State} {r : Response} (h : instrResponse s.cfg i = r) :
    exec i s = .next (answered s r) := by
  rw [exec_eq_deliver, h]
  rfl

/-- Settles O1: the pure response is the model's checksum, which is the sum modulo 256. -/
theorem cksumDeliversSumModulo256 : Obligations.CksumDeliversSumModulo256 := by
  intro a c1 c2 d1 d2 s
  refine exec_of_response ?_
  rw [instrResponse, cksumResponse, sum8_five]

/-- Settles O3: the pure response is the command frame, and the caller's checksum does not occur in it. -/
theorem encRawDeliversFrame : Obligations.EncRawDeliversFrame := by
  intro a c1 c2 d1 d2 given s
  refine exec_of_response ?_
  rw [instrResponse, encRawResponse, commandFrame_eq]

/-- A buffer that starts with FF passes the sync check (00_scope.md R7). -/
theorem syncByte_accepted : ¬ (0xFF : Byte) ≠ syncByte := not_not_intro rfl

/-- A seven-byte buffer that does not start with the sync byte is no frame. -/
theorem readFrame_badSync {b0 : Byte} (b1 b2 b3 b4 b5 b6 : Byte) (hsync : b0 ≠ 0xFF) :
    readFrame [b0, b1, b2, b3, b4, b5, b6] = .error (.badSync b0) :=
  if_pos hsync

/-- A synchronised seven-byte buffer with another last byte than the sum of the five before it is no frame. -/
theorem readFrame_checksumMismatch {b1 b2 b3 b4 b5 b6 : Byte} (hsum : b6 ≠ fiveSum b1 b2 b3 b4 b5) :
    readFrame [0xFF, b1, b2, b3, b4, b5, b6] = .error (.checksumMismatch b6 (fiveSum b1 b2 b3 b4 b5)) := by
  rw [← sum8_five] at hsum ⊢
  rw [readFrame, if_neg syncByte_accepted, if_pos hsum]

/-- A synchronised buffer with the right checksum is read as the command frame of its five fields. -/
theorem readFrame_valid (b1 b2 b3 b4 b5 : Byte) :
    readFrame [0xFF, b1, b2, b3, b4, b5, fiveSum b1 b2 b3 b4 b5] = .ok (commandFrame b1 b2 b3 b4 b5) := by
  rw [← sum8_five]
  exact readFrame_commandFrame b1 b2 b3 b4 b5

/-- DEC_CMD passes on the error of reading its buffer. -/
theorem decCmdResponse_of_error {input : List Byte} {e : Error} (h : readFrame input = .error e) :
    decCmdResponse input = .error e := by
  rw [decCmdResponse, h]

/-- DEC_CMD's record of a valid frame (R81). -/
theorem decCmdResponse_valid (b1 b2 b3 b4 b5 : Byte) :
    decCmdResponse [0xFF, b1, b2, b3, b4, b5, fiveSum b1 b2 b3 b4 b5] =
      .ok (.cmd ⟨b1, b2, b3, b4, b5, fiveSum b1 b2 b3 b4 b5⟩) := by
  rw [decCmdResponse, readFrame_valid, commandFrame_eq]

/-- Settles O4: each kind of buffer by what reading a frame gives for it. -/
theorem decCmdAnswersEveryBuffer : Obligations.DecCmdAnswersEveryBuffer := by
  refine ⟨fun input s hlen => ?badLength, fun b0 b1 b2 b3 b4 b5 b6 s hsync => ?badSync,
    fun b1 b2 b3 b4 b5 b6 s hsum => ?badChecksum, fun b1 b2 b3 b4 b5 s => ?valid⟩
  case badLength => exact exec_of_response (decCmdResponse_of_error (readFrame_badLength hlen))
  case badSync => exact exec_of_response (decCmdResponse_of_error (readFrame_badSync b1 b2 b3 b4 b5 b6 hsync))
  case badChecksum => exact exec_of_response (decCmdResponse_of_error (readFrame_checksumMismatch hsum))
  case valid => exact exec_of_response (decCmdResponse_valid b1 b2 b3 b4 b5)

/-- The model's checksum of two bytes is their sum modulo 256. -/
theorem sum8_two (a b : Byte) : sum8 [a, b] = twoSum a b := by
  simp [sum8, twoSum]

/-- A buffer of another length than four is no general reply. -/
theorem readGeneral_badLength (cfg : Config) {input : List Byte} (hlen : input.length ≠ 4) :
    readGeneral cfg input = .error (.badLength 4 input.length) := by
  unfold readGeneral
  split
  · exact absurd rfl hlen
  · rfl

/-- A four-byte buffer that does not start with the sync byte is no general reply. -/
theorem readGeneral_badSync (cfg : Config) {b0 : Byte} (b1 b2 b3 : Byte) (hsync : b0 ≠ 0xFF) :
    readGeneral cfg [b0, b1, b2, b3] = .error (.badSync b0) :=
  if_pos hsync

/-- A synchronised four-byte buffer: the checksum decides only when the configuration asks for it. -/
theorem readGeneral_synced (cfg : Config) (b1 b2 b3 : Byte) :
    readGeneral cfg [0xFF, b1, b2, b3] =
      if cfg.verifyGeneralChecksum = true ∧ b3 ≠ twoSum b1 b2 then .error (.checksumMismatch b3 (twoSum b1 b2))
      else .ok ⟨b1, b2, b3⟩ := by
  rw [← sum8_two, readGeneral, if_neg syncByte_accepted]

/-- DEC_GEN passes on the error of reading its buffer. -/
theorem decGenResponse_of_error {cfg : Config} {input : List Byte} {e : Error} (h : readGeneral cfg input = .error e) :
    decGenResponse cfg input = .error e := by
  rw [decGenResponse, h]

/-- DEC_GEN reports a wrong checksum when the configuration asks for the check (R82). -/
theorem decGenResponse_checksumMismatch {cfg : Config} {b1 b2 b3 : Byte} (verify : cfg.verifyGeneralChecksum = true)
    (hsum : b3 ≠ twoSum b1 b2) :
    decGenResponse cfg [0xFF, b1, b2, b3] = .error (.checksumMismatch b3 (twoSum b1 b2)) := by
  refine decGenResponse_of_error ?_
  rw [readGeneral_synced, if_pos ⟨verify, hsum⟩]

/-- DEC_GEN's record of a reply whose checksum is right or is not looked at (R82). -/
theorem decGenResponse_valid {cfg : Config} {b1 b2 b3 : Byte}
    (accepted : cfg.verifyGeneralChecksum = false ∨ b3 = twoSum b1 b2) :
    decGenResponse cfg [0xFF, b1, b2, b3] = .ok (.gen ⟨b1, b2, b3⟩) := by
  have hpass : ¬ (cfg.verifyGeneralChecksum = true ∧ b3 ≠ twoSum b1 b2) := by
    rintro ⟨verify, hsum⟩
    rcases accepted with off | right
    · exact Bool.false_ne_true (off.symm.trans verify)
    · exact hsum right
  rw [decGenResponse, readGeneral_synced, if_neg hpass]

/-- Settles O5: each kind of buffer by what reading a general reply gives for it under the toggle. -/
theorem decGenAnswersEveryBuffer : Obligations.DecGenAnswersEveryBuffer := by
  refine ⟨fun input s hlen => ?badLength, fun b0 b1 b2 b3 s hsync => ?badSync,
    fun b1 b2 b3 s verify hsum => ?badChecksum, fun b1 b2 b3 s accepted => ?valid⟩
  case badLength => exact exec_of_response (decGenResponse_of_error (readGeneral_badLength s.cfg hlen))
  case badSync => exact exec_of_response (decGenResponse_of_error (readGeneral_badSync s.cfg b1 b2 b3 hsync))
  case badChecksum => exact exec_of_response (decGenResponse_checksumMismatch verify hsum)
  case valid => exact exec_of_response (decGenResponse_valid accepted)

/-- The big-endian value of two bytes (20_memory.md R34). -/
theorem joinBytes_eq_ofNat (hi lo : Byte) : joinBytes hi lo = BitVec.ofNat 16 (hi.toNat * 256 + lo.toNat) := by
  rw [← joinBytes_toNat, BitVec.ofNat_toNat, BitVec.setWidth_eq]

/-- DEC_EXT passes on the error of reading its buffer, whatever opcode is expected. -/
theorem decExtResponse_of_error {input : List Byte} {e : Error} (expected : Byte) (h : readFrame input = .error e) :
    decExtResponse input expected = .error e := by
  rw [decExtResponse, h]

/-- DEC_EXT compares the opcode of a valid frame last (R83). -/
theorem decExtResponse_validFrame (b1 b2 b3 b4 b5 expected : Byte) :
    decExtResponse [0xFF, b1, b2, b3, b4, b5, fiveSum b1 b2 b3 b4 b5] expected =
      if b3 ≠ expected then .error (.unexpectedOpcode expected b3)
      else .ok (.ext ⟨b1, b2, b3, b4, b5, fiveSum b1 b2 b3 b4 b5, BitVec.ofNat 16 (b4.toNat * 256 + b5.toNat)⟩) := by
  rw [decExtResponse, readFrame_valid, commandFrame_eq, ← joinBytes_eq_ofNat]

/-- Settles O6: the buffer by what reading a frame gives for it, then the opcode of a valid one. -/
theorem decExtAnswersEveryBuffer : Obligations.DecExtAnswersEveryBuffer := by
  refine ⟨fun input expected s hlen => ?badLength, fun b0 b1 b2 b3 b4 b5 b6 expected s hsync => ?badSync,
    fun b1 b2 b3 b4 b5 b6 expected s hsum => ?badChecksum, fun b1 b2 b3 b4 b5 expected s hopcode => ?badOpcode,
    fun b1 b2 b3 b4 b5 s => ?valid⟩
  case badLength => exact exec_of_response (decExtResponse_of_error expected (readFrame_badLength hlen))
  case badSync =>
    exact exec_of_response (decExtResponse_of_error expected (readFrame_badSync b1 b2 b3 b4 b5 b6 hsync))
  case badChecksum => exact exec_of_response (decExtResponse_of_error expected (readFrame_checksumMismatch hsum))
  case badOpcode => exact exec_of_response ((decExtResponse_validFrame b1 b2 b3 b4 b5 expected).trans (if_pos hopcode))
  case valid => exact exec_of_response ((decExtResponse_validFrame b1 b2 b3 b4 b5 b3).trans (if_neg (not_not_intro rfl)))

end Sys2Proof.Proofs
end

section
/-! PROOFS. The mutual exclusion check of the flags (41_validator.md R92). -/

namespace Sys2Proof.Proofs

open Sys2Proof.Machine Sys2Proof.Stated

/-- A group is in conflict exactly when both its flags are set (30_encoding.md R52). -/
theorem groupConflict_iff_opposed (flags : Flags) (k : Nat) : groupConflict flags k = true ↔ opposed flags k :=
  Bool.and_eq_true_iff

/-- Bit `k` of the conflict mask is set exactly when group `k` has both flags set. -/
theorem conflictMask_bit_iff_opposed (flags : Flags) {k : Nat} (hk : k < 5) :
    (conflictMask flags).getLsbD k = true ↔ opposed flags k := by
  rw [conflictMask_getLsbD flags k hk, groupConflict_iff_opposed]

/-- The conflict mask is zero exactly when no group has both flags set. -/
theorem conflictMask_eq_zero_iff_unopposed (flags : Flags) :
    conflictMask flags = 0 ↔ ∀ k, k < 5 → ¬ opposed flags k := by
  simp only [conflictMask_eq_zero_iff, ← groupConflict_iff_opposed, Bool.not_eq_true]

/-- VAL_EXCL is OK when the conflict mask is zero. -/
theorem valExclResponse_of_mask_zero {flags : Flags} (hmask : conflictMask flags = 0) :
    valExclResponse flags = .ok .statusOnly := by
  rw [valExclResponse, (checkExclusive_none_iff flags).mpr hmask]

/-- VAL_EXCL reports the conflict mask when it is not zero. -/
theorem valExclResponse_of_mask_ne_zero {flags : Flags} (hmask : conflictMask flags ≠ 0) :
    valExclResponse flags = .error (.conflictingFlags (conflictMask flags)) := by
  rw [valExclResponse, checkExclusive, if_pos hmask]

/-- Settles O12: the conflict mask is zero or not, and its bit `k` is the conflict of group `k`. -/
theorem valExclReportsEveryConflict : Obligations.ValExclReportsEveryConflict := by
  refine fun flags s => ⟨fun unopposed => ?noConflict, fun ⟨k, hk, conflict⟩ => ?conflict⟩
  case noConflict =>
    exact exec_of_response (valExclResponse_of_mask_zero ((conflictMask_eq_zero_iff_unopposed flags).mpr unopposed))
  case conflict =>
    have hmask : conflictMask flags ≠ 0 := fun hzero =>
      (conflictMask_eq_zero_iff_unopposed flags).mp hzero k hk conflict
    exact ⟨conflictMask flags, fun _ hj => conflictMask_bit_iff_opposed flags hj,
      exec_of_response (valExclResponse_of_mask_ne_zero hmask)⟩

end Sys2Proof.Proofs
end

section
/-! PROOFS. The validated encoders on every request (42_shapes.md R97, R99). -/

namespace Sys2Proof.Proofs

open Sys2Proof.Machine Sys2Proof.Stated

/-- The exclusion check passes when no group has both flags set (30_encoding.md R52). -/
theorem checkExclusive_of_unopposed {flags : Flags} (unopposed : ∀ k, k < 5 → ¬ opposed flags k) :
    checkExclusive flags = none :=
  (checkExclusive_none_iff flags).mpr ((conflictMask_eq_zero_iff_unopposed flags).mpr unopposed)

/-- A group with both flags set makes the conflict mask nonzero. -/
theorem conflictMask_ne_zero_of_opposed {flags : Flags} (conflict : ∃ k, k < 5 ∧ opposed flags k) :
    conflictMask flags ≠ 0 := by
  obtain ⟨k, hk, both⟩ := conflict
  exact fun hzero => (conflictMask_eq_zero_iff_unopposed flags).mp hzero k hk both

/-- The exclusion check reports the conflict mask when it is not zero. -/
theorem checkExclusive_of_mask_ne_zero {flags : Flags} (hmask : conflictMask flags ≠ 0) :
    checkExclusive flags = some (.conflictingFlags (conflictMask flags)) :=
  if_pos hmask

/-- A pan speed up to the configured maximum passes its check (10_state.md R19). -/
theorem checkByte_panSpeed_of_le {cfg : Config} {p : Byte} (hp : p.toNat ≤ panMax cfg) :
    checkByte cfg .panSpeed p = none := by
  rw [panMax_eq] at hp
  exact (checkRange_none_iff cfg .panSpeed _).mpr ⟨Int.natCast_nonneg _, Int.ofNat_le.mpr hp⟩

/-- A pan speed above the configured maximum is reported with the bounds. -/
theorem checkByte_panSpeed_of_gt {cfg : Config} {p : Byte} (hp : panMax cfg < p.toNat) :
    checkByte cfg .panSpeed p = some (.outOfRange .panSpeed (p.toNat : Int) 0 (panMax cfg)) := by
  rw [panMax_eq] at hp ⊢
  exact checkRange_of_outside (.inr (Int.ofNat_lt.mpr hp))

/-- A tilt speed up to the configured maximum passes its check (10_state.md R20). -/
theorem checkByte_tiltSpeed_of_le {cfg : Config} {t : Byte} (ht : t.toNat ≤ cfg.tiltSpeedMax.toNat) :
    checkByte cfg .tiltSpeed t = none :=
  (checkRange_none_iff cfg .tiltSpeed _).mpr ⟨Int.natCast_nonneg _, Int.ofNat_le.mpr ht⟩

/-- A tilt speed above the configured maximum is reported with the bounds. -/
theorem checkByte_tiltSpeed_of_gt {cfg : Config} {t : Byte} (ht : cfg.tiltSpeedMax.toNat < t.toNat) :
    checkByte cfg .tiltSpeed t = some (.outOfRange .tiltSpeed (t.toNat : Int) 0 cfg.tiltSpeedMax.toNat) :=
  checkRange_of_outside (.inr (Int.ofNat_lt.mpr ht))

/-- ENC_STD reports the first error of its checks. -/
theorem encStdResponse_of_error {cfg : Config} {a p t : Byte} {flags : Flags} {e : Error}
    (h : encStdError cfg a flags p t = some e) : encStdResponse cfg a flags p t = .error e := by
  rw [encStdResponse, h]

/-- ENC_STD's frame when its checks find no error. -/
theorem encStdResponse_of_no_error {cfg : Config} {a p t : Byte} {flags : Flags} (h : encStdError cfg a flags p t = none) :
    encStdResponse cfg a flags p t =
      .ok (.frame (commandFrame a (flagByte cfg.stdFlagBitmap flags .c1) (flagByte cfg.stdFlagBitmap flags .c2) p t)) := by
  rw [encStdResponse, h]

/-- A conflict of flags is the first error of ENC_STD, whatever the other operands. -/
theorem encStdError_conflict (cfg : Config) (a p t : Byte) {flags : Flags} (hmask : conflictMask flags ≠ 0) :
    encStdError cfg a flags p t = some (.conflictingFlags (conflictMask flags)) := by
  rw [encStdError, checkExclusive_of_mask_ne_zero hmask, Option.some_or]

section
variable {flags : Flags} (unopposed : ∀ k, k < 5 → ¬ opposed flags k)
include unopposed

/-- Without a conflict of flags ENC_STD checks the address, then the pan speed, then the tilt speed. -/
theorem encStdError_of_unopposed (cfg : Config) (a p t : Byte) :
    encStdError cfg a flags p t =
      (checkByte cfg .address a).or ((checkByte cfg .panSpeed p).or (checkByte cfg .tiltSpeed t)) := by
  rw [encStdError, checkExclusive_of_unopposed unopposed, Option.none_or]

/-- Without a conflict of flags address 0 is the first error. -/
theorem encStdError_address_zero (cfg : Config) (p t : Byte) :
    encStdError cfg 0 flags p t = some (.outOfRange .address 0 1 255) := by
  rw [encStdError_of_unopposed unopposed, checkByte_address_zero, Option.some_or]

/-- Without a conflict of flags and with a legal address the speeds decide. -/
theorem encStdError_of_address_ne_zero (cfg : Config) {a : Byte} (p t : Byte) (ha : a ≠ 0) :
    encStdError cfg a flags p t = (checkByte cfg .panSpeed p).or (checkByte cfg .tiltSpeed t) := by
  rw [encStdError_of_unopposed unopposed, checkByte_address_of_ne_zero cfg ha, Option.none_or]

/-- With a legal pan speed as well the tilt speed decides. -/
theorem encStdError_of_panSpeed_le {cfg : Config} {a p : Byte} (t : Byte) (ha : a ≠ 0) (hp : p.toNat ≤ panMax cfg) :
    encStdError cfg a flags p t = checkByte cfg .tiltSpeed t := by
  rw [encStdError_of_address_ne_zero unopposed cfg p t ha, checkByte_panSpeed_of_le hp, Option.none_or]

end

/-- A bit of a Standard command byte is set exactly when a set flag has its position (30_encoding.md R53). -/
theorem flagByte_bit_iff (m : FlagBitmap) (flags : Flags) (which : CmdByte) (j : Fin 8) :
    (flagByte m flags which).getLsbD j.val = true ↔ ∃ f, hasFlag flags f = true ∧ m.pos f = ⟨which, j⟩ := by
  have hall (f : Flag) : f ∈ Flag.all := by cases f <;> decide
  simp only [flagByte_getLsbD, List.any_eq_true, Bool.and_eq_true, decide_eq_true_eq, hall, true_and]

/-- Settles O14: the checks in their order, and then the frame whose command bytes are the flag bytes of the bitmap. -/
theorem encStdAnswersEveryRequest : Obligations.EncStdAnswersEveryRequest := by
  refine ⟨fun a flags p t s conflict => ?conflict, fun flags p t s unopposed => ?address,
    fun a flags p t s unopposed ha hp => ?panSpeed, fun a flags p t s unopposed ha hp ht => ?tiltSpeed,
    fun a flags p t s unopposed ha hp ht => ?frame⟩
  case conflict =>
    have hmask := conflictMask_ne_zero_of_opposed conflict
    exact ⟨conflictMask flags, fun _ hj => conflictMask_bit_iff_opposed flags hj,
      exec_of_response (encStdResponse_of_error (encStdError_conflict s.cfg a p t hmask))⟩
  case address => exact exec_of_response (encStdResponse_of_error (encStdError_address_zero unopposed s.cfg p t))
  case panSpeed =>
    refine exec_of_response (encStdResponse_of_error ?_)
    rw [encStdError_of_address_ne_zero unopposed s.cfg p t ha, checkByte_panSpeed_of_gt hp, Option.some_or]
  case tiltSpeed =>
    refine exec_of_response (encStdResponse_of_error ?_)
    rw [encStdError_of_panSpeed_le unopposed t ha hp, checkByte_tiltSpeed_of_gt ht]
  case frame =>
    have hnone : encStdError s.cfg a flags p t = none := by
      rw [encStdError_of_panSpeed_le unopposed t ha hp, checkByte_tiltSpeed_of_le ht]
    refine ⟨flagByte s.cfg.stdFlagBitmap flags .c1, flagByte s.cfg.stdFlagBitmap flags .c2,
      flagByte_bit_iff _ flags .c1, flagByte_bit_iff _ flags .c2, exec_of_response ?_⟩
    rw [instrResponse, encStdResponse_of_no_error hnone, commandFrame_eq]

/-- Bit 0 of an even byte is clear. -/
theorem getLsbD_zero_of_even {op : Byte} (even : op.toNat % 2 = 0) : op.getLsbD 0 = false := by
  rw [BitVec.getLsbD, Nat.testBit_zero, even]
  rfl

/-- With the check on, an even opcode is reported (10_state.md R23). -/
theorem checkOddOpcode_of_even {cfg : Config} {op : Byte} (check : cfg.extOpcodeOddCheck = true)
    (even : op.toNat % 2 = 0) : checkOddOpcode cfg op = some (.evenOpcode op) :=
  if_pos ⟨check, getLsbD_zero_of_even even⟩

/-- With the check off, every opcode passes (10_state.md R23). -/
theorem checkOddOpcode_of_unchecked {cfg : Config} (op : Byte) (off : cfg.extOpcodeOddCheck = false) :
    checkOddOpcode cfg op = none :=
  if_neg fun ⟨on, _⟩ => Bool.false_ne_true (off.symm.trans on)

/-- With a legal address ENC_EXT reports what the odd-opcode check reports. -/
theorem encExtResponse_of_error {cfg : Config} {a op : Byte} {e : Error} (sub : Option Byte) (v : Half) (ha : a ≠ 0)
    (h : checkOddOpcode cfg op = some e) : encExtResponse cfg a op sub v = .error e := by
  rw [encExtResponse, checkByte_address_of_ne_zero cfg ha, h, Option.none_or]

/-- ENC_EXT's frame for a legal address and an opcode that passes the odd-opcode check. -/
theorem encExtResponse_of_no_error {cfg : Config} {a op : Byte} (sub : Option Byte) (v : Half) (ha : a ≠ 0)
    (h : checkOddOpcode cfg op = none) :
    encExtResponse cfg a op sub v = .ok (.frame (commandFrame a (subOpcodeByte sub) op (highByte v) (lowByte v))) := by
  rw [encExtResponse, checkByte_address_of_ne_zero cfg ha, h, Option.none_or]

/-- Settles O18: the address, then the opcode's parity under the toggle, and then the frame with the payload's two bytes. -/
theorem encExtAnswersEveryRequest : Obligations.EncExtAnswersEveryRequest := by
  refine ⟨fun op sub v s => ?address, fun a op sub v s ha check even => ?evenOpcode,
    fun a op c1 d1 d2 sub v s ha accepted hsub hd1 hd2 => ?frame⟩
  case address => exact exec_of_response (encExtResponse_address_zero s.cfg op sub v)
  case evenOpcode => exact exec_of_response (encExtResponse_of_error sub v ha (checkOddOpcode_of_even check even))
  case frame =>
    have hopcode : checkOddOpcode s.cfg op = none :=
      accepted.elim (checkOddOpcode_of_unchecked op) (checkOddOpcode_of_odd s.cfg)
    have hc1 : subOpcodeByte sub = c1 := by
      rcases hsub with rfl | ⟨rfl, rfl⟩ <;> rfl
    have hhigh : highByte v = d1 := BitVec.eq_of_toNat_eq ((highByte_toNat v).trans hd1.symm)
    have hlow : lowByte v = d2 := BitVec.eq_of_toNat_eq ((lowByte_toNat v).trans hd2.symm)
    refine exec_of_response ?_
    rw [instrResponse, encExtResponse_of_no_error sub v ha hopcode, hc1, hhigh, hlow, commandFrame_eq]

end Sys2Proof.Proofs
end

section
/-! PROOFS. What a reset does in each handshake state (70_reset_and_hazards.md R121). -/

namespace Sys2Proof.Proofs

open Sys2Proof.Machine

/-- An IDLE block that is reset (70_reset_and_hazards.md R121). -/
theorem idleStep_of_reset {s : State} {rest : List Move} (hreset : s.schedule = .reset :: rest) :
    idleStep s = .next (State.resetBlock { s with schedule := rest }) := by
  rw [idleStep, hreset]

/-- A BUSY block that is reset does the same, whatever request it holds (70_reset_and_hazards.md R121). -/
theorem busyStep_of_reset (req : Request) {s : State} {rest : List Move} (hreset : s.schedule = .reset :: rest) :
    busyStep req s = .next (State.resetBlock { s with schedule := rest }) := by
  rw [busyStep, hreset]

/-- A reset move resets the block in every handshake state; the configuration stays (70_reset_and_hazards.md R121, R122). -/
theorem step_of_reset {s : State} {rest : List Move} (hreset : s.schedule = .reset :: rest) :
    step s = .next (State.resetBlock { s with schedule := rest }) := by
  cases hhs : s.hs with
  | idle => exact (step_idle hhs).trans (idleStep_of_reset hreset)
  | busy req => exact (step_busy hhs).trans (busyStep_of_reset req hreset)

/-- Settles O29: the state that `resetBlock` leaves is the one stated, and the request held before is not in it. -/
theorem resetDropsTheHeldRequest : Obligations.ResetDropsTheHeldRequest :=
  fun _ _ hreset => step_of_reset hreset

end Sys2Proof.Proofs
end

section
/-! PROOFS. Requests and the operations they decode to (30_encoding.md section 5; 10_state.md R26). -/

namespace Sys2Proof.Proofs

/-- Settles O22: only VAL_RANGE's value is written in another form, and one that fits 32 bits is read back. -/
theorem decodeEncodeIsIdentity : Obligations.DecodeEncodeIsIdentity := fun _ wf => decode_encode_of_wellFormed wf

/-- Every operation is written with its own selector (R64). -/
@[simp] theorem encode_op (i : Instr) : (encode i).op = i.selector := by
  cases i <;> rfl

/-- A 32-bit vector read as a signed integer fits 32 bits (10_state.md R26). -/
theorem fits32_toInt (v : BitVec 32) : fits32 v.toInt = true := by
  have hmin := BitVec.le_toInt v
  have hmax := BitVec.toInt_lt (x := v)
  simp only [fits32, Bool.and_eq_true, decide_eq_true_eq]
  omega

/-- A decoded operation is well-formed and has the request's selector. -/
theorem decode_ok {r : Request} {i : Instr} (h : decode r = .ok i) : i.wellFormed = true ∧ i.selector = r.op := by
  unfold decode at h
  split at h
  case h_6 hop => -- VAL_RANGE
    cases h
    exact ⟨fits32_toInt r.value, BitVec.eq_of_toNat_eq hop.symm⟩
  case h_10 => cases h -- a reserved selector
  all_goals
    rename_i hop
    cases h
    exact ⟨rfl, BitVec.eq_of_toNat_eq hop.symm⟩

/-- Settles O23: the decoded operation has a selector and a value that its request holds, so it is written and read back. -/
theorem decodedOperationIsWellFormed : Obligations.DecodedOperationIsWellFormed := by
  intro r i h
  obtain ⟨wf, hsel⟩ := decode_ok h
  exact ⟨wf, (encode_op i).trans hsel, decode_encode_of_wellFormed wf⟩

/-- Settles O24: a selector below 9 picks one arm of the decoder, which reads only fields the two requests share; a reserved one is
rejected unread. -/
theorem operationReadsOnlyItsFields : Obligations.OperationReadsOnlyItsFields := by
  intro r q hop haddress hbytes hchecksum hinput hexpected hrange hflags hspeeds hext
  by_cases reserved : 9 ≤ r.op.toNat
  · rw [decode_of_reserved reserved, decode_of_reserved (hop ▸ reserved), hop]
  · rw [decode, decode, ← hop]
    generalize r.op.toNat = n at *
    interval_cases n <;> simp_all
end Sys2Proof.Proofs
end

section
/-! PROOFS. Every response the codec delivers is sound: a frame and each record have the right checksum, an error shows its cause
(10_state.md R28 to R30, 60_exceptions.md R103). -/

namespace Sys2Proof.Proofs

open Sys2Proof.Machine Sys2Proof.Stated

/-- The sum of five bytes as a number. -/
theorem fiveSum_toNat (a b c d e : Byte) :
    (fiveSum a b c d e).toNat = (a.toNat + b.toNat + c.toNat + d.toNat + e.toNat) % 256 := by
  simp [fiveSum]

/-- The sum of two bytes as a number. -/
theorem twoSum_toNat (a b : Byte) : (twoSum a b).toNat = (a.toNat + b.toNat) % 256 := by
  simp [twoSum]

/-- A command frame is sound (30_encoding.md R45, R46). -/
theorem commandFrame_sound (a c1 c2 d1 d2 : Byte) : (commandFrame a c1 c2 d1 d2).Sound := by
  rw [commandFrame_eq]
  exact ⟨rfl, fiveSum_toNat a c1 c2 d1 d2⟩

/-- An error of reading a frame shows its cause. -/
theorem readFrame_error_sound (cfg : Config) {input : List Byte} {e : Error} (h : readFrame input = .error e) :
    e.Sound cfg := by
  obtain ⟨hlen, hread⟩ | ⟨b0, _, _, _, _, _, _, -, hsync, hread⟩ | ⟨_, _, _, _, _, b6, -, hsum, hread⟩ |
    ⟨_, _, _, _, _, -, hread⟩ := readFrame_cases input <;> cases h.symm.trans hread
  · exact ⟨.inl rfl, hlen⟩
  · exact hsync
  · exact hsum

/-- A frame that is read is a command frame, and the buffer holds its bytes. -/
theorem readFrame_ok {input : List Byte} {f : Frame} (h : readFrame input = .ok f) :
    ∃ a c1 c2 d1 d2, f = commandFrame a c1 c2 d1 d2 ∧ input = wire f := by
  obtain ⟨-, hread⟩ | ⟨_, _, _, _, _, _, _, -, -, hread⟩ | ⟨_, _, _, _, _, _, -, -, hread⟩ |
    ⟨a, c1, c2, d1, d2, hinput, hread⟩ := readFrame_cases input <;> cases h.symm.trans hread
  exact ⟨a, c1, c2, d1, d2, rfl, hinput⟩

/-- DEC_CMD passes on an error of reading its buffer, or answers the record of the command frame in it (40_codec.md R81). -/
theorem decCmdResponse_cases (input : List Byte) :
    (∃ e, readFrame input = .error e ∧ decCmdResponse input = .error e) ∨
    (∃ a c1 c2 d1 d2, input = wire (commandFrame a c1 c2 d1 d2) ∧
      decCmdResponse input = .ok (.cmd ⟨a, c1, c2, d1, d2, fiveSum a c1 c2 d1 d2⟩)) := by
  cases hread : readFrame input with
  | error e => exact .inl ⟨e, rfl, decCmdResponse_of_error hread⟩
  | ok f =>
    obtain ⟨a, c1, c2, d1, d2, rfl, rfl⟩ := readFrame_ok hread
    refine .inr ⟨a, c1, c2, d1, d2, rfl, ?_⟩
    rw [commandFrame_eq]
    exact decCmdResponse_valid a c1 c2 d1 d2

/-- DEC_EXT passes on an error of reading its buffer, reports another opcode than the expected one, or answers the record of the
extended reply in it (40_codec.md R83). -/
theorem decExtResponse_cases (input : List Byte) (expected : Byte) :
    (∃ e, readFrame input = .error e ∧ decExtResponse input expected = .error e) ∨
    (∃ received, expected ≠ received ∧ decExtResponse input expected = .error (.unexpectedOpcode expected received)) ∨
    (∃ a r1 d1 d2, input = wire (commandFrame a r1 expected d1 d2) ∧
      decExtResponse input expected =
        .ok (.ext ⟨a, r1, expected, d1, d2, fiveSum a r1 expected d1 d2, joinBytes d1 d2⟩)) := by
  cases hread : readFrame input with
  | error e => exact .inl ⟨e, rfl, decExtResponse_of_error expected hread⟩
  | ok f =>
    obtain ⟨a, r1, r2, d1, d2, rfl, rfl⟩ := readFrame_ok hread
    have hresponse := decExtResponse_validFrame a r1 r2 d1 d2 expected
    rw [← joinBytes_eq_ofNat] at hresponse
    rw [commandFrame_eq]
    by_cases hopcode : r2 = expected
    · subst hopcode
      exact .inr (.inr ⟨a, r1, d1, d2, congrArg wire (commandFrame_eq a r1 r2 d1 d2).symm,
        hresponse.trans (if_neg (not_not_intro rfl))⟩)
    · exact .inr (.inl ⟨r2, Ne.symm hopcode, hresponse.trans (if_pos hopcode)⟩)

theorem decCmdResponse_sound (cfg : Config) (input : List Byte) : (decCmdResponse input).Sound cfg := by
  obtain ⟨e, hread, hresponse⟩ | ⟨a, c1, c2, d1, d2, -, hresponse⟩ := decCmdResponse_cases input <;> rw [hresponse]
  · exact readFrame_error_sound cfg hread
  · exact fiveSum_toNat a c1 c2 d1 d2

theorem decExtResponse_sound (cfg : Config) (input : List Byte) (expected : Byte) :
    (decExtResponse input expected).Sound cfg := by
  obtain ⟨e, hread, hresponse⟩ | ⟨received, hopcode, hresponse⟩ | ⟨a, r1, d1, d2, -, hresponse⟩ :=
    decExtResponse_cases input expected <;> rw [hresponse]
  · exact readFrame_error_sound cfg hread
  · exact hopcode
  · exact ⟨fiveSum_toNat a r1 expected d1 d2, joinBytes_toNat d1 d2⟩

theorem decGenResponse_sound (cfg : Config) (input : List Byte) : (decGenResponse cfg input).Sound cfg := by
  obtain ⟨hlen, hread⟩ | ⟨_, _, _, _, -, hsync, hread⟩ | ⟨_, _, _, -, -, hsum, hread⟩ |
    ⟨b1, b2, b3, -, hsum, hread⟩ := readGeneral_cases cfg input <;> rw [decGenResponse, hread]
  · exact ⟨.inr rfl, hlen⟩
  · exact hsync
  · exact hsum
  · intro verify
    rw [hsum verify, sum8_two]
    exact twoSum_toNat b1 b2

/-- The error of a range check shows the bounds in force and the value outside them (41_validator.md R90). -/
theorem checkRange_some_sound {cfg : Config} {f : FieldId} {v : Int} {e : Error} (h : checkRange cfg f v = some e) :
    e.Sound cfg := by
  obtain ⟨rfl, outside⟩ := checkRange_some h
  exact ⟨rfl, outside⟩

/-- The error of the exclusion check shows a conflict (41_validator.md R92). -/
theorem checkExclusive_some_sound (cfg : Config) {flags : Flags} {e : Error} (h : checkExclusive flags = some e) :
    e.Sound cfg := by
  obtain ⟨hmask, rfl⟩ := (Option.ite_some_none_eq_some).mp h
  exact hmask

/-- The error of the odd-opcode check shows an even opcode and the check on (42_shapes.md R99). -/
theorem checkOddOpcode_some_sound {cfg : Config} {op : Byte} {e : Error} (h : checkOddOpcode cfg op = some e) :
    e.Sound cfg := by
  obtain ⟨⟨check, -⟩, rfl⟩ := (Option.ite_some_none_eq_some).mp h
  refine ⟨check, (Nat.mod_two_eq_zero_or_one op.toNat).resolve_right fun odd => ?_⟩
  cases (checkOddOpcode_of_odd cfg odd).symm.trans h

theorem valRangeResponse_sound (cfg : Config) (field : FieldBits) (v : Int) : (valRangeResponse cfg field v).Sound cfg := by
  cases hfield : fieldOfBits field with
  | none =>
    have reserved := (fieldOfBits_none_iff field).mp hfield
    rw [valRangeResponse_of_reserved cfg v reserved]
    exact reserved
  | some f =>
    cases hcheck : checkRange cfg f v with
    | none => simp only [valRangeResponse, hfield, hcheck, Response.Sound, Result.Sound]
    | some e =>
      simp only [valRangeResponse, hfield, hcheck]
      exact checkRange_some_sound hcheck

theorem valExclResponse_sound (cfg : Config) (flags : Flags) : (valExclResponse flags).Sound cfg := by
  cases hcheck : checkExclusive flags <;> rw [valExclResponse, hcheck]
  case none => trivial
  case some e => exact checkExclusive_some_sound cfg hcheck

/-- The first error of ENC_STD is one of its four checks' (42_shapes.md R97). -/
theorem encStdError_some_sound {cfg : Config} {a p t : Byte} {flags : Flags} {e : Error}
    (h : encStdError cfg a flags p t = some e) : e.Sound cfg := by
  simp only [encStdError, checkByte, Option.or_eq_some_iff] at h
  obtain hflags | ⟨-, haddress | ⟨-, hpan | ⟨-, htilt⟩⟩⟩ := h
  · exact checkExclusive_some_sound cfg hflags
  · exact checkRange_some_sound haddress
  · exact checkRange_some_sound hpan
  · exact checkRange_some_sound htilt

theorem encStdResponse_sound (cfg : Config) (a : Byte) (flags : Flags) (p t : Byte) :
    (encStdResponse cfg a flags p t).Sound cfg := by
  cases herror : encStdError cfg a flags p t with
  | none =>
    rw [encStdResponse_of_no_error herror]
    exact commandFrame_sound _ _ _ _ _
  | some e =>
    rw [encStdResponse_of_error herror]
    exact encStdError_some_sound herror

theorem encExtResponse_sound (cfg : Config) (a op : Byte) (sub : Option Byte) (v : Half) :
    (encExtResponse cfg a op sub v).Sound cfg := by
  cases herror : (checkByte cfg .address a).or (checkOddOpcode cfg op) <;> rw [encExtResponse, herror]
  case none => exact commandFrame_sound _ _ _ _ _
  case some e =>
    obtain haddress | ⟨-, hopcode⟩ := Option.or_eq_some_iff.mp herror
    · exact checkRange_some_sound haddress
    · exact checkOddOpcode_some_sound hopcode

/-- The response to every operation is sound. -/
theorem instrResponse_sound (cfg : Config) (i : Instr) : (instrResponse cfg i).Sound cfg := by
  cases i with
  | cksum => trivial
  | encRaw a c1 c2 d1 d2 => exact commandFrame_sound a c1 c2 d1 d2
  | decCmd input => exact decCmdResponse_sound cfg input
  | decGen input => exact decGenResponse_sound cfg input
  | decExt input expected => exact decExtResponse_sound cfg input expected
  | valRange field v => exact valRangeResponse_sound cfg field v
  | valExcl flags => exact valExclResponse_sound cfg flags
  | encStd a flags p t => exact encStdResponse_sound cfg a flags p t
  | encExt a op sub v => exact encExtResponse_sound cfg a op sub v

/-- Only a reserved selector is rejected (30_encoding.md R65). -/
theorem reserved_of_decode_error {r : Request} {e : DecodeError} (h : decode r = .error e) : 9 ≤ r.op.toNat := by
  by_contra hlt
  rw [decode] at h
  generalize r.op.toNat = n at h hlt
  interval_cases n <;> cases h

/-- The response to every request is sound, a reserved selector's included (30_encoding.md R65). -/
theorem respond_sound (cfg : Config) (r : Request) : (respond cfg r).Sound cfg := by
  cases hdecode : decode r with
  | ok i =>
    rw [respond, hdecode]
    exact instrResponse_sound cfg i
  | error e =>
    have reserved := reserved_of_decode_error hdecode
    rw [respond_of_reserved cfg reserved]
    exact reserved

end Sys2Proof.Proofs
end

section
/-! PROOFS. The invariant of the machine: it holds at reset, and every step keeps it (00_scope.md section 4, 10_state.md sections 2
and 4). -/

namespace Sys2Proof.Proofs

open Sys2Proof.Machine

/-- Accepting a request keeps the invariant: the output is cleared. -/
theorem inv_accept {s : State} (inv : s.Inv) (rest : List Move) (req : Request) :
    (State.accept { s with schedule := rest } req).Inv where
  legal := inv.legal
  quiet _ _ := rfl
  latest := nofun
  sound := inv.sound

/-- Resetting the block keeps the invariant: the output is cleared. -/
theorem inv_resetBlock {s : State} (inv : s.Inv) (rest : List Move) :
    (State.resetBlock { s with schedule := rest }).Inv where
  legal := inv.legal
  quiet _ _ := rfl
  latest := nofun
  sound := inv.sound

/-- Delivering a sound response keeps the invariant: it is at the output and the last one received. -/
theorem inv_deliver {s : State} (inv : s.Inv) (rest : List Move) {r : Response} (hr : r.Sound s.cfg) :
    (State.deliver { s with schedule := rest } r).Inv where
  legal := inv.legal
  quiet := nofun
  latest _ shown := by
    cases shown
    exact List.getLast?_concat
  sound x hx := by
    obtain old | rfl := List.mem_append.mp hx |>.imp_right List.mem_singleton.mp
    · exact inv.sound x old
    · exact hr

/-- Making a move that leaves the block as it is keeps the invariant. -/
theorem inv_schedule {s : State} (inv : s.Inv) (rest : List Move) : State.Inv { s with schedule := rest } where
  legal := inv.legal
  quiet := inv.quiet
  latest := inv.latest
  sound := inv.sound

/-- Settles O39: a step accepts, resets, delivers a sound response or only makes a move, and each keeps the invariant. -/
theorem stepKeepsTheInvariant : Obligations.StepKeepsTheInvariant := by
  intro s t inv hstep
  obtain ⟨rest, req, -, -, rfl⟩ | ⟨rest, -, rfl⟩ | ⟨req, rest, -, -, rfl⟩ | ⟨rest, rfl⟩ := step_cases hstep
  · exact inv_accept inv rest req
  · exact inv_resetBlock inv rest
  · exact inv_deliver inv rest (respond_sound s.cfg req)
  · exact inv_schedule inv rest

/-- The spec's configuration is legal for every value of the OPEN parameters (00_scope.md R8). -/
theorem configWith_legal (p : PanSpeedMax) (verify : Bool) : (configWith p verify).legal = true := by
  have hbitmap : defaultBitmap.distinct = true := by decide
  have hopcode : (0x05 : Byte).getLsbD 0 = true := by decide
  rw [Config.legal, Bool.and_eq_true, Bool.and_eq_true]
  exact ⟨⟨rfl, hbitmap⟩, hopcode⟩

/-- Settles O38: the reset configuration is legal, and nothing is held, shown or received. -/
theorem invariantHoldsAtReset : Obligations.InvariantHoldsAtReset where
  legal := configWith_legal _ _
  quiet := nofun
  latest := nofun
  sound := nofun

/-- Settles O30: each field of the reset state by its definition (70_reset_and_hazards.md R123). -/
theorem resetStateIsAsStated : Obligations.ResetStateIsAsStated := ⟨rfl, rfl, rfl, rfl, rfl, rfl, rfl, rfl⟩

end Sys2Proof.Proofs
end

section
/-! PROOFS. The codec family's round trips, error detection and configuration dependence (40_codec.md section 6). -/

namespace Sys2Proof.Proofs

open Sys2Proof.Machine Sys2Proof.Stated

/-- An operation answers `r` exactly when its pure response is `r` (10_state.md R14). -/
theorem exec_eq_answered_iff {i : Instr} {s : State} {r : Response} :
    exec i s = .next (answered s r) ↔ instrResponse s.cfg i = r := by
  refine ⟨fun h => ?_, exec_of_response⟩
  rw [exec_eq_deliver] at h
  exact Option.some.inj (congrArg State.response (Host.Outcome.next.inj h))

/-- Settles O33: the one response is the pure one. -/
theorem everyOperationAnswersOnce : Obligations.EveryOperationAnswersOnce := fun _ _ => ⟨_, exec_of_response rfl⟩

/-- Settles O2: the pure response is the checksum, which does not depend on the order of its bytes. -/
theorem cksumIgnoresOperandOrder : Obligations.CksumIgnoresOperandOrder := by
  intro a c1 c2 d1 d2 a' c1' c2' d1' d2' s perm
  simp only [exec_eq_deliver, instrResponse, cksumResponse, sum8_perm perm]

/-- ENC_RAW's response is the command frame, whatever checksum the caller gives (40_codec.md R80). -/
theorem encRawResponse_eq (a c1 c2 d1 d2 : Byte) (given : Option Byte) :
    encRawResponse a c1 c2 d1 d2 given = .ok (.frame (commandFrame a c1 c2 d1 d2)) := rfl

/-- DEC_CMD reads the fields of a command frame back (40_codec.md R84). -/
theorem decCmdResponse_commandFrame (a c1 c2 d1 d2 : Byte) :
    decCmdResponse (wire (commandFrame a c1 c2 d1 d2)) = .ok (.cmd ⟨a, c1, c2, d1, d2, fiveSum a c1 c2 d1 d2⟩) := by
  rw [commandFrame_eq]
  exact decCmdResponse_valid a c1 c2 d1 d2

/-- DEC_CMD accepts only the bytes of command frames, and answers their fields (40_codec.md R85). -/
theorem decCmdResponse_cmd {input : List Byte} {r : CommandRecord} (h : decCmdResponse input = .ok (.cmd r)) :
    input = wire (commandFrame r.address r.command1 r.command2 r.data1 r.data2) := by
  obtain ⟨_, -, hresponse⟩ | ⟨a, c1, c2, d1, d2, hinput, hresponse⟩ := decCmdResponse_cases input <;>
    cases h.symm.trans hresponse
  exact hinput

/-- DEC_EXT accepts only the bytes of command frames (40_codec.md R83). -/
theorem decExtResponse_ext {input : List Byte} {expected : Byte} {r : ExtendedReply}
    (h : decExtResponse input expected = .ok (.ext r)) :
    input = wire (commandFrame r.address r.response1 r.response2 r.data1 r.data2) := by
  obtain ⟨_, -, hresponse⟩ | ⟨_, -, hresponse⟩ | ⟨a, r1, d1, d2, hinput, hresponse⟩ :=
    decExtResponse_cases input expected <;> cases h.symm.trans hresponse
  exact hinput

/-- Settles O7: ENC_RAW makes the command frame, and DEC_CMD reads its fields back. -/
theorem rawEncodeThenDecodeIsIdentity : Obligations.RawEncodeThenDecodeIsIdentity := fun a c1 c2 d1 d2 given _ _ =>
  ⟨commandFrame a c1 c2 d1 d2, exec_of_response (encRawResponse_eq a c1 c2 d1 d2 given),
    exec_of_response (decCmdResponse_commandFrame a c1 c2 d1 d2)⟩

/-- Settles O8: an accepted buffer is the command frame of its fields, and every command frame is accepted. -/
theorem decodeThenRawEncodeIsIdentity : Obligations.DecodeThenRawEncodeIsIdentity := by
  refine ⟨fun input r given s t haccept => ?roundTrip, fun input s => ⟨fun ⟨r, haccept⟩ => ?frame, ?accepted⟩⟩
  case roundTrip =>
    exact ⟨_, (decCmdResponse_cmd (exec_eq_answered_iff.mp haccept)).symm,
      exec_of_response (encRawResponse_eq _ _ _ _ _ given)⟩
  case frame =>
    exact ⟨_, _, _, _, _, _, exec_of_response (encRawResponse_eq _ _ _ _ _ none),
      (decCmdResponse_cmd (exec_eq_answered_iff.mp haccept)).symm⟩
  case accepted =>
    rintro ⟨a, c1, c2, d1, d2, f, hencode, rfl⟩
    cases exec_eq_answered_iff.mp hencode
    exact ⟨_, exec_of_response (decCmdResponse_commandFrame a c1 c2 d1 d2)⟩

/-- Changing one byte of a list changes its checksum. -/
theorem sum8_set_ne {bytes : List Byte} {k : Nat} {b : Byte} (hk : k < bytes.length) (changed : bytes[k]? ≠ some b) :
    sum8 (bytes.set k b) ≠ sum8 bytes := by
  rw [Ne, sum8_eq_iff]
  induction bytes generalizing k with
  | nil => exact absurd hk (Nat.not_lt_zero k)
  | cons c rest ih =>
    cases k with
    | zero =>
      have hne : c.toNat ≠ b.toNat := fun heq => changed (congrArg some (BitVec.eq_of_toNat_eq heq))
      have := c.isLt
      have := b.isLt
      simp only [List.set_cons_zero, List.map_cons, List.sum_cons]
      omega
    | succ k =>
      have hrest := ih (Nat.lt_of_succ_lt_succ hk) changed
      simp only [List.set_cons_succ, List.map_cons, List.sum_cons]
      omega

/-- A synchronised buffer of five covered bytes and another last byte than their checksum fails the checksum test (40_codec.md R81). -/
theorem readFrame_covered_checksumMismatch {covered : List Byte} {b6 : Byte} (hlen : covered.length = 5)
    (hsum : b6 ≠ sum8 covered) :
    readFrame (syncByte :: (covered ++ [b6])) = .error (.checksumMismatch b6 (sum8 covered)) := by
  match covered, hlen with
  | [b1, b2, b3, b4, b5], _ =>
    rw [sum8_five] at hsum ⊢
    exact readFrame_checksumMismatch hsum

/-- One changed byte in positions 1 to 6 of a command frame makes the checksum test fail: it is a covered byte or the checksum
(40_codec.md R86). -/
theorem readFrame_set_checksumMismatch {a c1 c2 d1 d2 b : Byte} {i : Nat} (hlow : 1 ≤ i) (hhigh : i ≤ 6)
    (changed : (wire (commandFrame a c1 c2 d1 d2))[i]? ≠ some b) :
    ∃ received computed : Byte, received ≠ computed ∧
      readFrame ((wire (commandFrame a c1 c2 d1 d2)).set i b) = .error (.checksumMismatch received computed) := by
  obtain ⟨k, rfl⟩ := Nat.exists_eq_add_of_le' hlow
  have hwire : wire (commandFrame a c1 c2 d1 d2) = syncByte :: ([a, c1, c2, d1, d2] ++ [sum8 [a, c1, c2, d1, d2]]) := rfl
  rw [hwire, List.getElem?_cons_succ] at changed
  rw [hwire, List.set_cons_succ]
  generalize hcovered : [a, c1, c2, d1, d2] = covered at changed
  have hlen : covered.length = 5 := hcovered ▸ rfl
  rcases Nat.lt_or_ge k 5 with hk | hk
  · have hk' : k < covered.length := hlen ▸ hk
    rw [List.getElem?_append_left hk'] at changed
    rw [List.set_append_left k b hk']
    have hsum := (sum8_set_ne hk' changed).symm
    exact ⟨_, _, hsum, readFrame_covered_checksumMismatch ((List.length_set).trans hlen) hsum⟩
  · obtain rfl : k = covered.length := by omega
    have hsum : b ≠ sum8 covered := fun heq => changed (by simp [heq])
    rw [List.set_append_right _ _ (Nat.le_refl _), Nat.sub_self, List.set_cons_zero]
    exact ⟨_, _, hsum, readFrame_covered_checksumMismatch hlen hsum⟩

/-- Settles O9: both decoders pass on the checksum error of a command frame with one changed byte, and five bytes with the same sum
make a valid frame. -/
theorem checksumDetectsOneChangedByte : Obligations.ChecksumDetectsOneChangedByte := by
  refine ⟨fun input r i b s haccept hlow hhigh changed => ?command,
    fun input expected r i b s haccept hlow hhigh changed => ?extended, fun b1 b2 b3 b4 b5 x1 x2 x3 x4 x5 s hsum => ?sameSum⟩
  case command =>
    obtain rfl := decCmdResponse_cmd (exec_eq_answered_iff.mp haccept)
    obtain ⟨received, computed, hne, hread⟩ := readFrame_set_checksumMismatch hlow hhigh changed
    exact ⟨received, computed, hne, exec_of_response (decCmdResponse_of_error hread)⟩
  case extended =>
    obtain rfl := decExtResponse_ext (exec_eq_answered_iff.mp haccept)
    obtain ⟨received, computed, hne, hread⟩ := readFrame_set_checksumMismatch hlow hhigh changed
    exact ⟨received, computed, hne, exec_of_response (decExtResponse_of_error expected hread)⟩
  case sameSum =>
    rw [← hsum]
    exact exec_of_response (decCmdResponse_valid x1 x2 x3 x4 x5)

/-- An operation whose pure response is the same under another configuration answers it under both. -/
theorem answers_under_both {i : Instr} {s : State} {c : Config} (h : instrResponse c i = instrResponse s.cfg i) :
    ∃ r, exec i s = .next (answered s r) ∧ exec i { s with cfg := c } = .next (answered { s with cfg := c } r) :=
  ⟨instrResponse s.cfg i, exec_of_response rfl, exec_of_response h⟩

/-- The operations listed read no configuration (40_codec.md R88). -/
theorem instrResponse_of_readsNoConfig {i : Instr} (h : readsNoConfig i = true) (c c' : Config) :
    instrResponse c i = instrResponse c' i := by
  cases i with
  | cksum | encRaw | decCmd | decExt => rfl
  | decGen | valRange | valExcl | encStd | encExt => cases h

/-- DEC_GEN reads of the configuration only the checksum toggle (40_codec.md R88). -/
theorem decGenResponse_congr {c c' : Config} (input : List Byte)
    (h : c.verifyGeneralChecksum = c'.verifyGeneralChecksum) : decGenResponse c input = decGenResponse c' input := by
  simp only [decGenResponse, readGeneral, h]

/-- DEC_GEN of four bytes with the right checksum answers alike under every configuration (40_codec.md R88). -/
theorem decGenResponse_of_right_checksum (c c' : Config) (b0 b1 b2 : Byte) :
    decGenResponse c [b0, b1, b2, twoSum b1 b2] = decGenResponse c' [b0, b1, b2, twoSum b1 b2] := by
  by_cases hsync : b0 = 0xFF
  · subst hsync
    rw [decGenResponse_valid (.inr rfl), decGenResponse_valid (.inr rfl)]
  · rw [decGenResponse_of_error (readGeneral_badSync c _ _ _ hsync),
      decGenResponse_of_error (readGeneral_badSync c' _ _ _ hsync)]

/-- Settles O10: in each clause the pure response is the same under both configurations. -/
theorem onlyDecGenReadsTheToggle : Obligations.OnlyDecGenReadsTheToggle :=
  ⟨fun _ s c h => answers_under_both (instrResponse_of_readsNoConfig h c s.cfg),
    fun input _ _ h => answers_under_both (decGenResponse_congr input h),
    fun b0 b1 b2 s c => answers_under_both (decGenResponse_of_right_checksum c s.cfg b0 b1 b2)⟩

/-- The conflict mask depends only on the ten grouped flags (41_validator.md R93). -/
theorem conflictMask_congr {f g : Flags} (h : ∀ j, j < 10 → f.getLsbD j = g.getLsbD j) : conflictMask f = conflictMask g := by
  refine BitVec.eq_of_getLsbD_eq fun k hk => ?_
  rw [conflictMask_getLsbD f k hk, conflictMask_getLsbD g k hk, groupConflict, groupConflict, h (2 * k + 1) (by omega),
    h (2 * k) (by omega)]

/-- Settles O13: VAL_EXCL looks at the conflict mask only. -/
theorem valExclIgnoresUngroupedFlags : Obligations.ValExclIgnoresUngroupedFlags := by
  intro f g s h
  simp only [exec_eq_deliver, instrResponse, valExclResponse, checkExclusive, conflictMask_congr h]

end Sys2Proof.Proofs
end

section
/-! PROOFS. The shapes: what a frame of ENC_STD or ENC_EXT shows of its request (42_shapes.md R98, R100; 30_encoding.md R50, R55). -/

namespace Sys2Proof.Proofs

open Sys2Proof.Machine Sys2Proof.Stated

/-- The frame that ENC_STD builds of a request (42_shapes.md R97). -/
def standardFrame (m : FlagBitmap) (a : Byte) (flags : Flags) (p t : Byte) : Frame :=
  commandFrame a (flagByte m flags .c1) (flagByte m flags .c2) p t

/-- A frame that ENC_STD answers is the Standard frame of the request, and no check failed. -/
theorem encStdResponse_frame {cfg : Config} {a p t : Byte} {flags : Flags} {f : Frame}
    (h : encStdResponse cfg a flags p t = .ok (.frame f)) :
    encStdError cfg a flags p t = none ∧ f = standardFrame cfg.stdFlagBitmap a flags p t := by
  cases herror : encStdError cfg a flags p t with
  | none =>
    cases (encStdResponse_of_no_error herror).symm.trans h
    exact ⟨rfl, rfl⟩
  | some e => cases (encStdResponse_of_error herror).symm.trans h

/-- A frame that ENC_EXT answers is the command frame of the request, and the opcode passed its check. -/
theorem encExtResponse_frame {cfg : Config} {a op : Byte} {sub : Option Byte} {v : Half} {f : Frame}
    (h : encExtResponse cfg a op sub v = .ok (.frame f)) :
    checkOddOpcode cfg op = none ∧ f = commandFrame a (subOpcodeByte sub) op (highByte v) (lowByte v) := by
  by_cases ha : a = 0
  · subst ha
    cases (encExtResponse_address_zero cfg op sub v).symm.trans h
  · cases hopcode : checkOddOpcode cfg op with
    | none =>
      cases (encExtResponse_of_no_error sub v ha hopcode).symm.trans h
      exact ⟨rfl, rfl⟩
    | some e => cases (encExtResponse_of_error sub v ha hopcode).symm.trans h

/-- ENC_STD's checks all pass only on unopposed flags, a legal address and speeds within their maxima (42_shapes.md R97). -/
theorem encStdError_none {cfg : Config} {a p t : Byte} {flags : Flags} (h : encStdError cfg a flags p t = none) :
    (∀ k, k < 5 → ¬ opposed flags k) ∧ a ≠ 0 ∧ p.toNat ≤ panMax cfg ∧ t.toNat ≤ cfg.tiltSpeedMax.toNat := by
  simp only [encStdError, Option.or_eq_none_iff] at h
  obtain ⟨hflags, haddress, hpan, htilt⟩ := h
  refine ⟨(conflictMask_eq_zero_iff_unopposed flags).mp ((checkExclusive_none_iff flags).mp hflags), ?_, ?_, ?_⟩
  · rintro rfl
    cases (checkByte_address_zero cfg).symm.trans haddress
  · by_contra hp
    cases (checkByte_panSpeed_of_gt (Nat.lt_of_not_le hp)).symm.trans hpan
  · by_contra ht
    cases (checkByte_tiltSpeed_of_gt (Nat.lt_of_not_le ht)).symm.trans htilt

theorem flag_mem_all (f : Flag) : f ∈ Flag.all := by
  cases f <;> decide

/-- Each bit of the flag vector belongs to a flag (30_encoding.md R51). -/
theorem exists_flagBit_eq {j : Nat} (hj : j < 13) : ∃ f, flagBit f = j := by
  have hall : ∀ j, j < 13 → ∃ f ∈ Flag.all, flagBit f = j := by decide
  obtain ⟨f, -, hf⟩ := hall j hj
  exact ⟨f, hf⟩

/-- A legal bitmap has one flag at most at each position (10_state.md R24). -/
theorem pos_injective {m : FlagBitmap} (distinct : m.distinct = true) {f g : Flag} (h : m.pos f = m.pos g) : f = g :=
  List.inj_on_of_nodup_map (of_decide_eq_true distinct) (flag_mem_all f) (flag_mem_all g) h

/-- A position of a Standard frame is set exactly when a set flag has it (30_encoding.md R53). -/
theorem frameBit_standardFrame_iff (m : FlagBitmap) (a : Byte) (flags : Flags) (p t : Byte) (q : FlagPos) :
    frameBit (standardFrame m a flags p t) q = true ↔ ∃ f, hasFlag flags f = true ∧ m.pos f = q := by
  obtain ⟨which, j⟩ := q
  cases which with
  | c1 => exact flagByte_bit_iff m flags .c1 j
  | c2 => exact flagByte_bit_iff m flags .c2 j

/-- With distinct positions a Standard frame shows each flag as requested (42_shapes.md R98 c). -/
theorem frameBit_standardFrame_pos {m : FlagBitmap} (distinct : m.distinct = true) (a : Byte) (flags : Flags) (p t : Byte)
    (f : Flag) : frameBit (standardFrame m a flags p t) (m.pos f) = hasFlag flags f := by
  rw [Bool.eq_iff_iff, frameBit_standardFrame_iff]
  refine ⟨fun ⟨g, hg, hpos⟩ => ?_, fun hf => ⟨f, hf, rfl⟩⟩
  rwa [← pos_injective distinct hpos]

/-- A position that no flag has is clear in a Standard frame. -/
theorem frameBit_standardFrame_unused {m : FlagBitmap} (a : Byte) (flags : Flags) (p t : Byte) {q : FlagPos}
    (unused : ∀ f ∈ Flag.all, m.pos f ≠ q) : frameBit (standardFrame m a flags p t) q = false := by
  rw [Bool.eq_false_iff, Ne, frameBit_standardFrame_iff]
  rintro ⟨f, -, hpos⟩
  exact unused f (flag_mem_all f) hpos

/-- Settles O16: the passed checks bound the fields, and a bit shown at a flag's position is that flag's. -/
theorem encStdFrameShowsTheRequest : Obligations.EncStdFrameShowsTheRequest := by
  intro a flags p t s f h
  obtain ⟨hnone, rfl⟩ := encStdResponse_frame (exec_eq_answered_iff.mp h)
  obtain ⟨unopposed, ha, hp, ht⟩ := encStdError_none hnone
  have hpositive : 1 ≤ a.toNat := Nat.pos_of_ne_zero fun hzero => ha (BitVec.eq_of_toNat_eq hzero)
  refine ⟨⟨rfl, hpositive, rfl, hp, rfl, ht⟩, fun distinct => ?_⟩
  have shows := frameBit_standardFrame_pos distinct a flags p t
  refine ⟨shows, fun k g h hk hg hh => ?_⟩
  rw [shows, shows, hasFlag, hasFlag, hg, hh]
  exact unopposed k hk

/-- Flag vectors with the same flags are the same (30_encoding.md R51). -/
theorem flags_ext {f g : Flags} (h : ∀ flag, hasFlag f flag = hasFlag g flag) : f = g := by
  refine BitVec.eq_of_getLsbD_eq fun j hj => ?_
  obtain ⟨flag, rfl⟩ := exists_flagBit_eq hj
  exact h flag

/-- The bit of a frame at a flag position lies in its command bytes. -/
theorem frameBit_congr {f g : Frame} (h2 : f.b2 = g.b2) (h3 : f.b3 = g.b3) (q : FlagPos) : frameBit f q = frameBit g q := by
  rw [frameBit, frameBit, h2, h3]

/-- Settles O17: the command bytes show each flag of both requests, and the data bytes are the speeds. -/
theorem encStdIsInjective : Obligations.EncStdIsInjective := by
  intro a a' flags flags' p t p' t' s s' f f' distinct sameBitmap h h' h2 h3 hpan htilt
  obtain ⟨-, rfl⟩ := encStdResponse_frame (exec_eq_answered_iff.mp h)
  obtain ⟨-, rfl⟩ := encStdResponse_frame (exec_eq_answered_iff.mp h')
  rw [sameBitmap] at h2 h3
  refine ⟨flags_ext fun flag => ?_, hpan, htilt⟩
  rw [← frameBit_standardFrame_pos distinct a flags p t flag, ← frameBit_standardFrame_pos distinct a' flags' p' t' flag]
  exact frameBit_congr h2 h3 _

/-- The positions of the default bitmap are distinct (10_state.md R24). -/
theorem defaultBitmap_distinct : defaultBitmap.distinct = true := by
  decide

/-- The layout of the default bitmap, flag by flag (30_encoding.md R50). -/
theorem defaultBitmap_pos :
    defaultBitmap.pos .sense = ⟨.c1, 7⟩ ∧
      (∀ j : Fin 5, ∃ f ∈ Flag.all, flagBit f = 7 + j.val ∧ defaultBitmap.pos f = ⟨.c1, j.castLE (by decide)⟩) ∧
      ∀ j : Fin 7, ∃ f ∈ Flag.all, flagBit f = j.val ∧ defaultBitmap.pos f = ⟨.c2, j.succ⟩ := by
  decide

/-- Bit 0 of `c2` is clear in every Standard frame under the default bitmap (30_encoding.md R55). -/
theorem standardFrame_default_c2_zero (a : Byte) (flags : Flags) (p t : Byte) :
    (standardFrame defaultBitmap a flags p t).b3.getLsbD 0 = false :=
  frameBit_standardFrame_unused a flags p t (q := ⟨.c2, 0⟩) (by decide)

/-- Settles O15: the Standard frame shows each flag at its default position, and the bits without a flag are clear. -/
theorem defaultBitmapLaysOutTheFlags : Obligations.DefaultBitmapLaysOutTheFlags := by
  intro a flags p t s hbitmap unopposed ha hp ht
  have hnone : encStdError s.cfg a flags p t = none := by
    rw [encStdError_of_panSpeed_le unopposed t ha hp, checkByte_tiltSpeed_of_le ht]
  have shows {f : Flag} {q : FlagPos} (hpos : defaultBitmap.pos f = q) :
      frameBit (standardFrame defaultBitmap a flags p t) q = flags.getLsbD (flagBit f) :=
    hpos ▸ frameBit_standardFrame_pos defaultBitmap_distinct a flags p t f
  obtain ⟨hsense, hc1, hc2⟩ := defaultBitmap_pos
  refine ⟨flagByte defaultBitmap flags .c1, flagByte defaultBitmap flags .c2, ⟨?_, ?_, ?_, fun j hj => ?_⟩,
    ⟨standardFrame_default_c2_zero a flags p t, fun j hj => ?_⟩, exec_of_response ?_⟩
  · exact shows hsense
  · exact frameBit_standardFrame_unused a flags p t (q := ⟨.c1, 6⟩) (by decide)
  · exact frameBit_standardFrame_unused a flags p t (q := ⟨.c1, 5⟩) (by decide)
  · obtain ⟨f, -, hbit, hpos⟩ := hc1 ⟨j, hj⟩
    exact (shows hpos).trans (congrArg flags.getLsbD hbit)
  · obtain ⟨f, -, hbit, hpos⟩ := hc2 ⟨j, hj⟩
    exact (shows hpos).trans (congrArg flags.getLsbD hbit)
  · rw [instrResponse, encStdResponse_of_no_error hnone, hbitmap, commandFrame_eq]

/-- A byte whose bit 0 is clear is even. -/
theorem even_of_getLsbD_zero {b : Byte} (h : b.getLsbD 0 = false) : b.toNat % 2 = 0 := by
  rw [BitVec.getLsbD, Nat.testBit_zero, decide_eq_false_iff_not] at h
  exact (Nat.mod_two_eq_zero_or_one b.toNat).resolve_right h

/-- Settles O20: under the default bitmap no flag has bit 0 of `c2`, and the odd-opcode check rejects even opcodes. -/
theorem lowBitOfCommand2TellsTheShape : Obligations.LowBitOfCommand2TellsTheShape := by
  refine ⟨fun a flags p t s f hbitmap h => ?standard, fun a op sub v s f check h => ?extended⟩
  case standard =>
    obtain ⟨-, rfl⟩ := encStdResponse_frame (exec_eq_answered_iff.mp h)
    rw [hbitmap]
    exact even_of_getLsbD_zero (standardFrame_default_c2_zero a flags p t)
  case extended =>
    obtain ⟨hopcode, rfl⟩ := encExtResponse_frame (exec_eq_answered_iff.mp h)
    refine (Nat.mod_two_eq_zero_or_one op.toNat).resolve_left fun even => ?_
    cases (checkOddOpcode_of_even check even).symm.trans hopcode

/-- Settles O19: both requests give one command frame, whose fields are the opcode, the sub-opcode and the payload's two bytes. -/
theorem encExtIsInjective : Obligations.EncExtIsInjective := by
  intro a op op' sub sub' v v' s s' f h h'
  obtain ⟨-, rfl⟩ := encExtResponse_frame (exec_eq_answered_iff.mp h)
  obtain ⟨-, hframe⟩ := encExtResponse_frame (exec_eq_answered_iff.mp h')
  refine ⟨congrArg Frame.b3 hframe, congrArg Frame.b2 hframe, ?_⟩
  calc v = joinBytes (highByte v) (lowByte v) := (joinBytes_high_low v).symm
    _ = joinBytes (highByte v') (lowByte v') := congrArg₂ joinBytes (congrArg Frame.b4 hframe) (congrArg Frame.b5 hframe)
    _ = v' := joinBytes_high_low v'

/-- A frame that any operation answers is a command frame: the decoders and validators answer none (42_shapes.md R102). -/
theorem instrResponse_frame {cfg : Config} {i : Instr} {f : Frame} (h : instrResponse cfg i = .ok (.frame f)) :
    ∃ a c1 c2 d1 d2, f = commandFrame a c1 c2 d1 d2 := by
  cases i with
  | cksum => cases h
  | encRaw a c1 c2 d1 d2 =>
    cases h
    exact ⟨a, c1, c2, d1, d2, rfl⟩
  | decCmd input =>
    obtain ⟨_, -, hresponse⟩ | ⟨_, _, _, _, _, -, hresponse⟩ := decCmdResponse_cases input <;>
      cases hresponse.symm.trans h
  | decGen input =>
    obtain ⟨-, hread⟩ | ⟨_, _, _, _, -, -, hread⟩ | ⟨_, _, _, -, -, -, hread⟩ | ⟨_, _, _, -, -, hread⟩ :=
      readGeneral_cases cfg input <;>
      (rw [instrResponse, decGenResponse, hread] at h; cases h)
  | decExt input expected =>
    obtain ⟨_, -, hresponse⟩ | ⟨_, -, hresponse⟩ | ⟨_, _, _, _, -, hresponse⟩ := decExtResponse_cases input expected <;>
      cases hresponse.symm.trans h
  | valRange field v =>
    simp only [instrResponse, valRangeResponse] at h
    split at h
    · cases h
    · split at h <;> cases h
  | valExcl flags =>
    simp only [instrResponse, valExclResponse] at h
    split at h <;> cases h
  | encStd => exact ⟨_, _, _, _, _, (encStdResponse_frame h).2⟩
  | encExt => exact ⟨_, _, _, _, _, (encExtResponse_frame h).2⟩

/-- Settles O21: any frame is a command frame, which ENC_RAW makes of its fields and DEC_CMD reads. -/
theorem everyFrameIsARawFrameThatDecodes : Obligations.EveryFrameIsARawFrameThatDecodes := by
  intro i given s t f h
  obtain ⟨a, c1, c2, d1, d2, rfl⟩ := instrResponse_frame (exec_eq_answered_iff.mp h)
  refine ⟨exec_of_response (encRawResponse_eq a c1 c2 d1 d2 given), exec_of_response ?_⟩
  rw [commandFrame_sum, sum8_five]
  exact decCmdResponse_commandFrame a c1 c2 d1 d2

end Sys2Proof.Proofs
end

section
/-! PROOFS. What a step, and a run of steps, do (10_state.md sections 2 and 3, 70_reset_and_hazards.md section 4). -/

namespace Sys2Proof.Proofs

open Sys2Proof.Machine Sys2Proof.Stated

/-- Serving a request that decodes runs its operation. -/
theorem serve_of_decode {r : Request} {i : Instr} (h : decode r = .ok i) (s : State) : serve r s = exec i s := by
  rw [serve, h]

/-- Settles O27: at its turn a BUSY block serves the request it holds, which runs the decoded operation. -/
theorem stepRunsTheDecodedOperation : Obligations.StepRunsTheDecodedOperation := by
  intro r i rest s held hdecode turn
  rw [step_busy held, busyStep_of_codecTurn r turn, serve_of_decode hdecode]

/-- An IDLE block accepts the request submitted next (10_state.md R14). -/
theorem step_of_submit {s : State} {req : Request} {rest : List Move} (idle : s.hs = .idle)
    (hmoves : s.schedule = .submit req :: rest) : step s = .next (State.accept { s with schedule := rest } req) := by
  rw [step_idle idle, idleStep, hmoves]

/-- A submit that stands next waits for the held request's answer. -/
theorem codecTurn_of_submit {s : State} {req : Request} {rest : List Move} (hmoves : s.schedule = .submit req :: rest) :
    codecTurn s s.schedule :=
  .inr ⟨rfl, .inr ⟨req, rest, .inl hmoves⟩⟩

/-- Settles O28: an IDLE block accepts, and a BUSY one answers the held request while the submit waits. -/
theorem requestAcceptedOnlyWhileIdle : Obligations.RequestAcceptedOnlyWhileIdle :=
  ⟨fun _ _ _ idle hmoves => step_of_submit idle hmoves,
    fun _ _ _ _ held hmoves => ⟨_, step_of_codecTurn held (codecTurn_of_submit hmoves)⟩⟩

/-- Settles O31: whatever a step does, it is not to the configuration. -/
theorem configurationNeverChanges : Obligations.ConfigurationNeverChanges := by
  intro s t hstep
  obtain ⟨_, _, -, -, rfl⟩ | ⟨_, -, rfl⟩ | ⟨_, _, -, -, rfl⟩ | ⟨_, rfl⟩ := step_cases hstep <;> rfl

/-- An IDLE block answers a next state to every move. -/
theorem idleStep_next (s : State) : ∃ t, idleStep s = .next t := by
  unfold idleStep
  split
  case h_3 => split <;> exact ⟨_, rfl⟩
  all_goals exact ⟨_, rfl⟩

/-- A BUSY block answers a next state to every move, since serving a request always delivers a response. -/
theorem busyStep_next (req : Request) (s : State) : ∃ t, busyStep req s = .next t := by
  unfold busyStep
  simp only [serve_eq_deliver]
  split <;> exact ⟨_, rfl⟩

/-- Settles O32: by the handshake state. -/
theorem everyStepAnswersNext : Obligations.EveryStepAnswersNext := by
  intro s
  cases hhs : s.hs with
  | idle => rw [step_idle hhs]; exact idleStep_next s
  | busy req => rw [step_busy hhs]; exact busyStep_next req s

/-- Settles O34: of all that a step can do, a BUSY block cannot accept; it resets, delivers or keeps the request. -/
theorem busyEndsByResponseOrReset : Obligations.BusyEndsByResponseOrReset := by
  intro req s t held hstep
  obtain ⟨rest, _, idle, -, -⟩ | ⟨rest, hreset, rfl⟩ | ⟨req', rest, held', -, rfl⟩ | ⟨rest, rfl⟩ := step_cases hstep
  · cases held.symm.trans idle
  · exact .inr (.inr ⟨rfl, rfl, rfl, rest, hreset⟩)
  · cases held.symm.trans held'
    exact .inr (.inl ⟨rfl, rfl, rfl⟩)
  · exact .inl ⟨held, rfl, rfl⟩

/-- Some number of steps leads to IDLE. -/
def ReachesIdle (s : State) : Prop := ∃ (n : Nat) (t : State), Host.Core.run Sys2Proof.core n s = .next t ∧ t.hs = .idle

/-- A step into an IDLE state reaches it. -/
theorem reachesIdle_of_step_idle {s t : State} (hstep : step s = .next t) (idle : t.hs = .idle) : ReachesIdle s :=
  ⟨1, t, by rw [run_of_step hstep, run_zero], idle⟩

/-- A step before a run that reaches IDLE. -/
theorem reachesIdle_of_step {s t : State} (hstep : step s = .next t) (h : ReachesIdle t) : ReachesIdle s := by
  obtain ⟨n, u, hrun, idle⟩ := h
  exact ⟨n + 1, u, (run_of_step hstep).trans hrun, idle⟩

/-- The codec's turn leads to IDLE. -/
theorem reachesIdle_of_codecTurn {s : State} {req : Request} {rest : List Move} (held : s.hs = .busy req)
    (turn : codecTurn s rest) : ReachesIdle s :=
  reachesIdle_of_step_idle (step_of_codecTurn held turn) rfl

/-- While time passes a BUSY block holds its request (70_reset_and_hazards.md R130). -/
theorem step_of_pass {s : State} {req : Request} {rest : List Move} (held : s.hs = .busy req)
    (hmoves : s.schedule = .pass :: rest) : step s = .next { s with schedule := rest } := by
  rw [step_busy held, busyStep, hmoves]

/-- A BUSY block with the given moves to come reaches IDLE. -/
theorem reachesIdle_of_busy {req : Request} (moves : List Move) {s : State} (held : s.hs = .busy req)
    (hmoves : s.schedule = moves) : ReachesIdle s := by
  induction moves generalizing s with
  | nil => exact reachesIdle_of_codecTurn held (.inr ⟨rfl, .inl hmoves⟩)
  | cons move rest ih =>
    cases move with
    | submit next => exact reachesIdle_of_codecTurn held (codecTurn_of_submit hmoves)
    | submitIfOk next => exact reachesIdle_of_codecTurn held (.inr ⟨rfl, .inr ⟨next, rest, .inr hmoves⟩⟩)
    | reset => exact reachesIdle_of_step_idle (step_of_reset hmoves) rfl
    | codec => exact reachesIdle_of_codecTurn held (.inl hmoves)
    | pass => exact reachesIdle_of_step (step_of_pass held hmoves) (ih held rfl)

/-- Settles O35: by induction on the moves to come; only `pass` leaves the request held. -/
theorem busyCodecReturnsToIdle : Obligations.BusyCodecReturnsToIdle := fun _ s held =>
  reachesIdle_of_busy s.schedule held rfl

/-- The submits of a program wait while a request is held. -/
theorem codecTurn_programMoves {s : State} (reqs : List Request) (hmoves : s.schedule = programMoves reqs) :
    codecTurn s (programMoves reqs) := by
  cases reqs with
  | nil => exact .inr ⟨hmoves.symm, .inl hmoves⟩
  | cons req rest => exact hmoves ▸ codecTurn_of_submit hmoves

/-- A program of requests is answered request by request. -/
theorem restsAfter_programMoves (reqs : List Request) {s : State} (idle : s.hs = .idle)
    (hmoves : s.schedule = programMoves reqs) :
    RestsAfter (2 * reqs.length) s (reqs.map (respond s.cfg)) := by
  induction reqs generalizing s with
  | nil => exact restsAfter_zero idle hmoves
  | cons req rest ih =>
    exact RestsAfter.answer (step_of_submit idle hmoves) (codecTurn_programMoves rest rfl) (ih rfl rfl)

/-- Settles O37: the run of the program's moves, by induction on its requests. -/
theorem programIsAnsweredRequestByRequest : Obligations.ProgramIsAnsweredRequestByRequest := fun reqs _ idle hmoves =>
  restsAfter_programMoves reqs idle hmoves

/-- An error's status code is 0x1 to 0x9 (60_exceptions.md R103). -/
theorem errorStatus_bounds (e : Error) : 1 ≤ (errorStatus e).toNat ∧ (errorStatus e).toNat ≤ 9 := by
  cases e <;> simp [errorStatus]

/-- Settles O40: OK has code 0 by definition, and an error the code of its constructor. -/
theorem statusCodesAreAsListed : Obligations.StatusCodesAreAsListed := by
  refine ⟨fun r => ?_, fun _ _ => rfl, fun _ => rfl, fun _ _ => rfl, fun _ _ => rfl, fun _ _ _ _ => rfl, fun _ => rfl,
    fun _ => rfl, fun _ => rfl, fun _ => rfl⟩
  cases r with
  | ok x => exact ⟨Nat.zero_le 9, fun _ => ⟨x, rfl⟩, fun _ => rfl⟩
  | error e =>
    obtain ⟨hpositive, hbound⟩ := errorStatus_bounds e
    exact ⟨hbound, fun hzero => absurd hzero (Nat.ne_of_gt hpositive), nofun⟩

/-- Settles O41: each class is one arm of the table (60_exceptions.md R105). -/
theorem errorsHaveTheirSourceClass : Obligations.ErrorsHaveTheirSourceClass :=
  ⟨fun _ _ => rfl, fun _ => rfl, fun _ _ => rfl, fun _ _ => rfl, fun _ _ _ _ => rfl, fun _ => rfl, fun _ => rfl,
    fun _ => rfl, fun _ => rfl⟩

end Sys2Proof.Proofs
end

section
/-! PROOFS. The written and the expanded requests are well-formed (30_encoding.md R61, R69). -/

namespace Sys2Proof.Proofs

open Sys2Proof.Machine

/-- Both requests of GOTO_PRESET are well-formed when the id fits 32 bits (30_encoding.md R74). -/
theorem gotoPreset_wellFormed (c : Config) (a : Byte) {id : Int} (fits : fits32 id = true) :
    ∀ i ∈ gotoPreset c a id, i.wellFormed = true :=
  List.forall_mem_cons.mpr ⟨fits, List.forall_mem_singleton.mpr rfl⟩

/-- Every operation that a well-formed pseudo-operation expands to is well-formed (30_encoding.md R69). -/
theorem expand_wellFormed {c : Config} {p : Pseudo} (wf : p.wellFormed = true) : ∀ i ∈ expand c p, i.wellFormed = true := by
  cases p with
  | gotoPreset a id => exact gotoPreset_wellFormed c a wf
  | flip180 a | zeroPan a => exact gotoPreset_wellFormed c a rfl
  | _ => exact List.forall_mem_singleton.mpr rfl

/-- If the assembler accepts, the operations it gives are well-formed. -/
def GivesWellFormed (r : Except AsmError (List Instr)) : Prop := ∀ instrs, r = .ok instrs → ∀ i ∈ instrs, i.wellFormed = true

theorem givesWellFormed_error (e : AsmError) : GivesWellFormed (.error e) := nofun

/-- One operation whose well-formedness needs no check. -/
theorem givesWellFormed_one {i : Instr} (wf : i.wellFormed = true) : GivesWellFormed (pure [i]) := by
  rintro _ ⟨⟩
  exact List.forall_mem_singleton.mpr wf

theorem givesWellFormed_expand {c : Config} {p : Pseudo} (wf : p.wellFormed = true) : GivesWellFormed (pure (expand c p)) := by
  rintro _ ⟨⟩
  exact expand_wellFormed wf

/-- An operand read before the operations are built: what follows is only reached with a value that was read. -/
theorem givesWellFormed_bind {α : Type} {x : Except AsmError α} {f : α → Except AsmError (List Instr)}
    (h : ∀ a, x = .ok a → GivesWellFormed (f a)) : GivesWellFormed (x >>= f) := by
  cases x with
  | error e => exact givesWellFormed_error e
  | ok a => exact h a rfl

/-- An operand that is read is what its reader gives for some written value. -/
theorem operand_ok {α : Type} {ops : List (String × AsmValue)} {name : String} {read : AsmValue → Option α} {x : α}
    (h : operand ops name read = .ok x) : ∃ v, read v = some x := by
  unfold operand optOperand at h
  cases hlookup : ops.lookup name with
  | none => simp [hlookup] at h
  | some v =>
    cases hread : read v with
    | none => simp [hlookup, hread] at h
    | some y =>
      simp only [hlookup, hread] at h
      cases h
      exact ⟨v, hread⟩

/-- A signed value is only read when it fits 32 bits (assumption log 9). -/
theorem fits32_of_operand {ops : List (String × AsmValue)} {name : String} {n : Int}
    (h : operand ops name asInt32 = .ok n) : fits32 n = true := by
  obtain ⟨v, hv⟩ := operand_ok h
  cases v with
  | atom w =>
    obtain ⟨m, -, hm⟩ := Option.bind_eq_some_iff.mp hv
    obtain ⟨fits, rfl⟩ := Option.ite_some_none_eq_some.mp hm
    exact fits
  | octets | names => cases hv

/-- The operations of every mnemonic are well-formed: only VAL_RANGE and GOTO_PRESET carry a signed value, which was read by
`asInt32`. -/
theorem assembleOps_givesWellFormed (c : Config) (mnemonic : String) (ops : List (String × AsmValue)) :
    GivesWellFormed (assembleOps c mnemonic ops) := by
  unfold assembleOps
  split
  case h_6 => -- VAL_RANGE
    exact givesWellFormed_bind fun _ _ => givesWellFormed_bind fun _ hvalue =>
      givesWellFormed_one (fits32_of_operand hvalue)
  case h_11 => -- GOTO_PRESET
    exact givesWellFormed_bind fun _ _ => givesWellFormed_bind fun _ hid =>
      givesWellFormed_expand (fits32_of_operand hid)
  case h_26 => exact givesWellFormed_error _
  case h_1 | h_2 | h_3 | h_4 | h_5 | h_7 | h_8 | h_9 => -- the other operations
    repeat refine givesWellFormed_bind fun _ _ => ?_
    exact givesWellFormed_one rfl
  all_goals -- the other pseudo-operations
    repeat refine givesWellFormed_bind fun _ _ => ?_
    exact givesWellFormed_expand rfl

/-- The operations an accepted line asks for are well-formed: none for a blank line, and the mnemonic's otherwise. -/
theorem parseLine_givesWellFormed (c : Config) (line : String) : GivesWellFormed (parseLine c line) := by
  unfold parseLine
  split
  · exact givesWellFormed_error _
  · rintro _ ⟨⟩ i ⟨⟩
  · split
    · exact givesWellFormed_error _
    · exact givesWellFormed_error _
    · split
      · exact givesWellFormed_error _
      · split
        · exact givesWellFormed_error _
        · exact assembleOps_givesWellFormed c _ _
  · exact givesWellFormed_error _

/-- Settles O47: the expansions by `expand_wellFormed`, the lines by the operations of their mnemonics. -/
theorem writtenRequestsAreWellFormed : Obligations.WrittenRequestsAreWellFormed :=
  ⟨fun _ _ => expand_wellFormed, fun c line => parseLine_givesWellFormed c line⟩

end Sys2Proof.Proofs
end
